-- ==== Sys2Proof/Word.lean ====
section
/-! DEFINITION. The plain value types of the block: command words, time values, digits, pixels, frames,
channels and pin levels (00_scope.md R7, R12). -/

namespace Sys2Proof

/-- One command word: 16 bits (30_encoding.md R90). -/
abbrev Word := BitVec 16

/-- A time value or stamp, in ms (10_state.md R45). It is a natural number that the machine keeps below
`2 ^ TIME_BITS`, since TIME_BITS is a parameter of the configuration (log 1, DEDUCED). -/
abbrev Time := Nat

/-- The displayed digit, 0 to 9 (10_state.md R35); the codes 10 to 15 do not exist. -/
abbrev Digit := Fin 10

/-- A logical index (a cell of a pattern) or a physical index (a position on the string), 0 to 24
(00_scope.md, glossary). -/
abbrev Index := Fin 25

/-- A pixel word: three 8-bit channels (20_memory.md R65). -/
abbrev Pixel := BitVec 24

/-- A frame: 25 pixel words by physical index (20_memory.md R64). -/
abbrev Frame := Vector Pixel 25

/-- Three indicator bits: bit 2 red, bit 1 green, bit 0 blue (10_state.md R39). -/
abbrev Rgb3 := BitVec 3

/-- The two button channels (10_state.md R31). -/
inductive Chan where
  | A
  | B
deriving DecidableEq, Repr

/-- The raw electrical level of a button pin: `low` is 0, `high` is 1 (30_encoding.md R92). -/
inductive Level where
  | low
  | high
deriving DecidableEq, Repr

/-- A colour as three 8-bit channel values (00_scope.md R7, 10_state.md R57). -/
structure Colour where
  r : BitVec 8
  g : BitVec 8
  b : BitVec 8
deriving DecidableEq, Repr, Inhabited

end Sys2Proof
end

