-- ==== Sys2Proof/Config.lean ====
section
/-! DEFINITION. The configuration record (10_state.md R50 to R59), the open parameters as constants with no
body, and the source's unaudited defaults. -/

namespace Sys2Proof

/-- The six channel orders (10_state.md R56). -/
inductive ChannelOrder where
  | RGB
  | RBG
  | GRB
  | GBR
  | BRG
  | BGR
deriving DecidableEq, Repr, Inhabited

/-- The configuration record as an integrator writes it, not yet checked (00_scope.md R6, 10_state.md R50 to R58).
`WellFormed.lean` says which records are legal. -/
structure RawConfig where
  /-- Width of every time value and stamp (R50). -/
  timeBits : Nat
  /-- Debounce interval in ms (R51). -/
  debounceMs : Nat
  /-- Blink period in ms (R52). -/
  blinkMs : Nat
  /-- Cadence of the host's ticks in ms, a natural number of at least 1 (00_scope.md R6; log 12); the block never reads
  it (R53). -/
  pollMs : PNat
  /-- `pattern[d]` bit `i` is logical cell `i` of digit `d` (R54). -/
  pattern : Vector (BitVec 25) 10
  /-- `physMap[i]` is the physical index of logical cell `i`, a 5-bit value (R55, 20_memory.md R62). -/
  physMap : Vector (BitVec 5) 25
  /-- Where each colour channel stands in a pixel word (R56). -/
  channelOrder : ChannelOrder
  /-- The colour of a lit cell (R57). -/
  fgColor : Colour
  /-- The indicator drive while `blink.phase = 1` (R58). -/
  blinkColor : Rgb3
deriving DecidableEq, Repr

/-- The source's default debounce interval, unaudited (10_state.md R51, 00_scope.md R8). -/
def Config.defaultDebounceMs : Nat := 50

/-- The source's default blink period, unaudited (10_state.md R52, 00_scope.md R8). -/
def Config.defaultBlinkMs : Nat := 100

/-- The source's default poll cadence, unaudited (10_state.md R53, 00_scope.md R8). -/
def Config.defaultPollMs : PNat := 10

/-! The OPEN parameters of the machine at `State.reset` (log 3): constants with no body, so no proof can see a
value of one. Each is combined in `WellFormed.lean` so that every legal configuration, and no other, can arise. -/

/-- OPEN: `TIME_BITS` less one (10_state.md R50). -/
opaque Config.openTimeBitsLessOne : Nat

/-- OPEN: `DEBOUNCE_MS`, taken modulo `2 ^ TIME_BITS` (10_state.md R51). -/
opaque Config.openDebounceMs : Nat

/-- OPEN: `BLINK_MS`, taken modulo `2 ^ TIME_BITS` (10_state.md R52). -/
opaque Config.openBlinkMs : Nat

/-- OPEN: `POLL_MS`, at least 1 (10_state.md R53, 00_scope.md R6). -/
opaque Config.openPollMs : PNat

/-- OPEN: the pattern table (10_state.md R54). -/
opaque Config.openPattern : Vector (BitVec 25) 10

/-- OPEN: the logical-to-physical map, a bijection of [0, 24] (10_state.md R55). -/
opaque Config.openPhysMap : Equiv.Perm Index

/-- OPEN: the channel order (10_state.md R56). -/
opaque Config.openChannelOrder : ChannelOrder

/-- OPEN: the foreground colour (10_state.md R57). -/
opaque Config.openFgColor : Colour

/-- OPEN: the blink colour (10_state.md R58). -/
opaque Config.openBlinkColor : Rgb3

/-- The time value `now0` of the reset input that `State.reset` stands after, an input of the host and so not fixed
by the spec (10_state.md R48; log 4). It is taken modulo `2 ^ TIME_BITS`. -/
opaque Config.openResetTime : Nat

end Sys2Proof
end

