-- ==== Sys2Proof/Syntax.lean ====
section
/-! DEFINITION. The four commands (one constructor per row of spec/opcode_table.json), the inputs that carry them,
the output events, and the pseudo-instructions. -/

namespace Sys2Proof

/-- The commands of interface 1 (30_encoding.md R93 to R96). -/
inductive Instr where
  /-- EDGE `ch, lvl`: the pin of channel `ch` has the level `lvl` after an edge (40_edge_capture.md R120). -/
  | edge (ch : Chan) (lvl : Level)
  /-- TICK `lvlA, lvlB`: one run of the control loop's body with the two sampled levels (45_control_loop.md R260). -/
  | tick (lvlA lvlB : Level)
  /-- BLINKEN `en`: the new value of `blink.active` (44_blink.md R232). -/
  | blinken (en : Bool)
  /-- RENDER: show the current digit (43_renderer.md R190). -/
  | render
deriving DecidableEq, Repr

/-- One input of the block (00_scope.md R12, 45_control_loop.md R261). -/
inductive Input where
  /-- The reset input, not a command word (70_reset_and_hazards.md R340). -/
  | reset (now : Time)
  /-- A command word with the time value it arrives with (30_encoding.md R90). -/
  | cmd (w : Word) (now : Time)
deriving DecidableEq, Repr

/-- One output event (00_scope.md R12, 45_control_loop.md R263). -/
inductive Event where
  /-- A confirmed press of channel `c` that left the digit at `d`. -/
  | press (c : Chan) (d : Digit)
  /-- A frame handed to the LED string driver. -/
  | frame (f : Frame)
  /-- The indicator drive changed to `v`. -/
  | indicator (v : Rgb3)
deriving DecidableEq, Repr

/-! Pseudo-instructions, each standing for exactly one command word (30_encoding.md R100). -/

/-- `PRESS c`. -/
def Pseudo.press (c : Chan) : Instr := .edge c .low

/-- `RELEASE c`. -/
def Pseudo.release (c : Chan) : Instr := .edge c .high

/-- `IDLE`. -/
def Pseudo.idle : Instr := .tick .high .high

/-- `BLINKON`. -/
def Pseudo.blinkOn : Instr := .blinken true

/-- `BLINKOFF`. -/
def Pseudo.blinkOff : Instr := .blinken false

end Sys2Proof
end

