-- ==== Sys2Proof/WellFormed.lean ====
section
/-! DEFINITION. Which configurations, inputs and instructions are well-formed; the type `Config` of well-formed
configurations (10_state.md R59), and the configuration that the machine has at `State.reset`. -/

namespace Sys2Proof

/-- 10_state.md R50: `TIME_BITS` is at least 1. -/
def RawConfig.timeBitsOk (c : RawConfig) : Bool := decide (1 ≤ c.timeBits)

/-- 10_state.md R51: `DEBOUNCE_MS` is below `2 ^ TIME_BITS`. -/
def RawConfig.debounceOk (c : RawConfig) : Bool := decide (c.debounceMs < 2 ^ c.timeBits)

/-- 10_state.md R52: `BLINK_MS` is below `2 ^ TIME_BITS`. -/
def RawConfig.blinkOk (c : RawConfig) : Bool := decide (c.blinkMs < 2 ^ c.timeBits)

/-- 10_state.md R55: every entry of the map is in [0, 24]. -/
def RawConfig.mapRangeOk (c : RawConfig) : Bool := c.physMap.toList.all fun x => decide (x.toNat < 25)

/-- 10_state.md R55: the entries of the map are pairwise distinct. -/
def RawConfig.mapDistinctOk (c : RawConfig) : Bool := decide c.physMap.toList.Nodup

/-- The configurations that R59 does not call ill-formed: exactly the checks of R50, R51, R52 and R55. That
`POLL_MS` is at least 1 (00_scope.md R6) is in its type (log 12). -/
def RawConfig.wf (c : RawConfig) : Bool :=
  c.timeBitsOk && c.debounceOk && c.blinkOk && c.mapRangeOk && c.mapDistinctOk

/-- A well-formed configuration. An ill-formed one is refused: it is no term of this type, so no step is defined for
it (10_state.md R59, decision D19; log 2). -/
structure Config extends RawConfig where
  wf : toRawConfig.wf = true
deriving DecidableEq, Repr

/-- Refuse an ill-formed configuration (`none`), accept a well-formed one (10_state.md R59). -/
def RawConfig.check (c : RawConfig) : Option Config :=
  if h : c.wf = true then some ⟨c, h⟩ else none

/-- An input fits the ports of the block when its time value has `TIME_BITS` bits (30_encoding.md R90). -/
def Input.wf (timeBits : Nat) : Input → Bool
  | .reset now => decide (now < 2 ^ timeBits)
  | .cmd _ now => decide (now < 2 ^ timeBits)

/-- Every term of `Instr` is well-formed: each operand is one bit and its type has exactly the two values an encoding
can carry (30_encoding.md R93 to R96). -/
def Instr.wf : Instr → Bool
  | .edge _ _ => true
  | .tick _ _ => true
  | .blinken _ => true
  | .render => true

/-- The map at reset: any bijection of [0, 24], as 5-bit entries. -/
def Config.openRawMap : Vector (BitVec 5) 25 :=
  Vector.ofFn fun i => BitVec.ofNat 5 (Config.openPhysMap i).val

/-- The unchecked configuration at reset, from the open parameters (log 3). -/
def Config.openRaw : RawConfig where
  timeBits := Config.openTimeBitsLessOne + 1
  debounceMs := Config.openDebounceMs % 2 ^ (Config.openTimeBitsLessOne + 1)
  blinkMs := Config.openBlinkMs % 2 ^ (Config.openTimeBitsLessOne + 1)
  pollMs := Config.openPollMs
  pattern := Config.openPattern
  physMap := Config.openRawMap
  channelOrder := Config.openChannelOrder
  fgColor := Config.openFgColor
  blinkColor := Config.openBlinkColor

/-- Whatever the open parameters are, the configuration made of them is well-formed. -/
theorem Config.openRaw_wf : Config.openRaw.wf = true := by
  have hpos : 0 < 2 ^ (Config.openTimeBitsLessOne + 1) := Nat.pow_pos (by decide)
  have hrange : Config.openRaw.mapRangeOk = true := by
    simp only [RawConfig.mapRangeOk, Config.openRaw, Config.openRawMap, Vector.toList_ofFn, List.all_eq_true,
      decide_eq_true_eq, List.mem_ofFn]
    rintro x ⟨i, rfl⟩
    simp only [BitVec.toNat_ofNat]
    omega
  have hdistinct : Config.openRaw.mapDistinctOk = true := by
    simp only [RawConfig.mapDistinctOk, Config.openRaw, Config.openRawMap, Vector.toList_ofFn, decide_eq_true_eq,
      List.nodup_ofFn]
    intro i j h
    have h' := congrArg BitVec.toNat h
    simp only [BitVec.toNat_ofNat] at h'
    rw [Nat.mod_eq_of_lt (by omega), Nat.mod_eq_of_lt (by omega)] at h'
    exact Config.openPhysMap.injective (Fin.ext h')
  have hbits : Config.openRaw.timeBitsOk = true := decide_eq_true (Nat.le_add_left 1 _)
  have hdebounce : Config.openRaw.debounceOk = true := decide_eq_true (Nat.mod_lt _ hpos)
  have hblink : Config.openRaw.blinkOk = true := decide_eq_true (Nat.mod_lt _ hpos)
  rw [RawConfig.wf, hbits, hdebounce, hblink, hrange, hdistinct]
  rfl

/-- The configuration of the machine at `State.reset`: any well-formed one (log 3). -/
def Config.atReset : Config := ⟨Config.openRaw, Config.openRaw_wf⟩

end Sys2Proof
end

