-- ==== Sys2Proof/Decode.lean ====
section
/-! DEFINITION. The decoder, total on every 16-bit word (30_encoding.md R97), and the encoder (R93 to R96). -/

namespace Sys2Proof

/-- `w[15:12]` (30_encoding.md R91). -/
def opField (w : Word) : BitVec 4 := w.extractLsb' 12 4

/-- `w[11]` (30_encoding.md R91). -/
def aBit (w : Word) : Bool := w.getLsbD 11

/-- `w[10]` (30_encoding.md R91). -/
def bBit (w : Word) : Bool := w.getLsbD 10

/-- `w[9:0]` (30_encoding.md R91). -/
def rsvField (w : Word) : BitVec 10 := w.extractLsb' 0 10

/-- A channel from its operand bit: 0 is A, 1 is B (30_encoding.md R93). -/
def chanOfBit (b : Bool) : Chan := if b then .B else .A

/-- A level from its operand bit: 0 is low, 1 is high (30_encoding.md R92). -/
def levelOfBit (b : Bool) : Level := if b then .high else .low

/-- The operand bit of a channel (30_encoding.md R93). -/
def chanBit : Chan → Bool
  | .A => false
  | .B => true

/-- The operand bit of a level (30_encoding.md R92). -/
def levelBit : Level → Bool
  | .low => false
  | .high => true

/-- Why a word is Illegal (30_encoding.md R98). The machine records no cause (60_exceptions.md R300); the reason is the
decoder's answer only (log 13). -/
inductive IllegalWord where
  /-- `rsv ≠ 0`. -/
  | reservedBits
  /-- BLINKEN with `b = 1`. -/
  | blinkenOperand
  /-- RENDER with `a = 1` or `b = 1`. -/
  | renderOperand
  /-- `op` is 0x0 or 0x5 to 0xF. -/
  | unknownOp
deriving DecidableEq, Repr

/-- What a word decodes to: a command, or Illegal. -/
inductive Decoded where
  | legal (i : Instr)
  | illegal (why : IllegalWord)
deriving DecidableEq, Repr

/-- Decoding, in the order of 30_encoding.md R97. -/
def decode (w : Word) : Decoded :=
  if rsvField w ≠ 0#10 then .illegal .reservedBits
  else if opField w = 0x1#4 then .legal (.edge (chanOfBit (aBit w)) (levelOfBit (bBit w)))
  else if opField w = 0x2#4 then .legal (.tick (levelOfBit (aBit w)) (levelOfBit (bBit w)))
  else if opField w = 0x3#4 then
    if bBit w then .illegal .blinkenOperand else .legal (.blinken (aBit w))
  else if opField w = 0x4#4 then
    if aBit w || bBit w then .illegal .renderOperand else .legal .render
  else .illegal .unknownOp

/-- The instruction of a decoded word, if it is legal. -/
def instrOf : Decoded → Option Instr
  | .legal i => some i
  | .illegal _ => none

/-- The word of the four fields `op[15:12] a[11] b[10] rsv[9:0]` with `rsv = 0` (30_encoding.md R91). -/
def commandWord (op : BitVec 4) (a b : Bool) : Word :=
  op ++ BitVec.ofBool a ++ BitVec.ofBool b ++ 0#10

/-- The word of a command (30_encoding.md R93 to R96). -/
def encode : Instr → Word
  | .edge ch lvl => commandWord 0x1#4 (chanBit ch) (levelBit lvl)
  | .tick lvlA lvlB => commandWord 0x2#4 (levelBit lvlA) (levelBit lvlB)
  | .blinken en => commandWord 0x3#4 en false
  | .render => commandWord 0x4#4 false false

/-- A word of the opcode table: the low `nbits` bits of `w`, every bit above them 0; a command is one 16-bit word, so
bits above bit 15 are not part of it (log 15). -/
def tableWord (nbits w : Nat) : Word := BitVec.ofNat 16 (w % 2 ^ nbits)

/-- The instruction the decoder reads from a word of the opcode table. -/
def decodeTableWord (nbits w : Nat) : Option Instr := instrOf (decode (tableWord nbits w))

end Sys2Proof
end

