-- ==== Sys2Proof/Machine/State.lean ====
section
/-! DEFINITION. The state of the block (10_state.md R30 to R41, R48), with the configuration and the host's side of a
run beside it, all plain data; the reasons a step can stop. -/

namespace Sys2Proof.Machine

/-- The state of a button channel (10_state.md R32). -/
inductive BtnState where
  | released
  | debouncing
  | pressed
deriving DecidableEq, Repr

/-- One ButtonChannel record (10_state.md R31). -/
structure ButtonChannel where
  state : BtnState
  /-- The source's `lastEdgeTimestamp` (R33). -/
  t : Time
deriving DecidableEq, Repr

/-- The blink record (10_state.md R36 to R38). -/
structure BlinkState where
  active : Bool
  phase : Bool
  /-- The source's `lastToggleTimestamp` (R38). -/
  t : Time
deriving DecidableEq, Repr

/-- The state of the block. The record of 10_state.md R30 is `chanA` to `errIllegal`; `cfg` is the configuration,
which no step changes (log 2); `now`, `inputs` and `events` are the model's own (logs 5, 7, 8). -/
structure State where
  /-- The configuration (R50 to R59), fixed before reset is released (log 2). -/
  cfg : Config
  /-- `chan[A]` (R31). -/
  chanA : ButtonChannel
  /-- `chan[B]` (R31). -/
  chanB : ButtonChannel
  /-- The displayed digit (R35). -/
  digit : Digit
  /-- The blink controller's record (R36 to R38). -/
  blink : BlinkState
  /-- The indicator's drive (R39). -/
  indicator : Rgb3
  /-- The last frame handed to the LED string driver (R40). -/
  fb : Frame
  /-- The sticky error flag (R41). -/
  errIllegal : Bool
  /-- MODEL's own: the time value of the input being applied (00_scope.md R10; log 8). -/
  now : Time
  /-- MODEL's own: the host's inputs not yet applied, the next one first (45_control_loop.md R261; log 5). -/
  inputs : List Input
  /-- MODEL's own: the events emitted so far, oldest first (45_control_loop.md R263; log 7). -/
  events : List Event
deriving DecidableEq, Repr

/-- The reasons a step can fault: none. The block has no exception and no fault (60_exceptions.md R301, R307; log 11).
Nothing raises one, which is what the spec says and so safe. -/
inductive Fault where
deriving DecidableEq, Repr

/-- The reasons a step can be refused. -/
inductive Refusal where
  /-- An instruction with no meaning yet, raised by `exec` only; safe. No arm of this model raises it. -/
  | notModelled (mnemonic : String)
deriving DecidableEq, Repr

/-- A dark frame: every pixel word 0 (70_reset_and_hazards.md R340). -/
def darkFrame : Frame := Vector.replicate 25 0#24

/-- The time value of the reset input that `State.reset` stands after (log 4). -/
def resetTime : Time := Config.openResetTime % 2 ^ Config.atReset.timeBits

/-- The machine right after its first reset input, with `now0` the open constant `resetTime` (10_state.md R48,
70_reset_and_hazards.md R340). -/
def State.reset : State where
  cfg := Config.atReset
  chanA := { state := .released, t := resetTime }
  chanB := { state := .released, t := resetTime }
  digit := 0
  blink := { active := true, phase := false, t := resetTime }
  indicator := 0b000#3
  fb := darkFrame
  errIllegal := false
  now := resetTime
  inputs := []
  events := []

end Sys2Proof.Machine
end

