-- ==== Sys2Proof/Machine/Flags.lean ====
section
/-! DEFINITION. The block's only flag, `err_illegal` (10_state.md R41, R44): set by an Illegal word, cleared by reset
alone (60_exceptions.md R300, R302). -/

namespace Sys2Proof.Machine

/-- ILLEGAL, the effect of a word that decodes to Illegal: nothing else changes and no event is emitted
(60_exceptions.md R300). It stands where another machine takes an exception; the block has none (R301, R307). -/
def illegal (s : State) : State := { s with errIllegal := true }

/-- The flag after a reset (70_reset_and_hazards.md R340). -/
def clearIllegal (s : State) : State := { s with errIllegal := false }

end Sys2Proof.Machine
end

