-- ==== Sys2Proof/Machine/Operands.lean ====
section
/-! DEFINITION. The operand forms: what a level bit means, and the fields of a configuration that the commands read. -/

namespace Sys2Proof.Machine

/-- `pressed(l) = (l == 0)`: the buttons are active-low (30_encoding.md R92). -/
def pressed (l : Level) : Bool := decide (l = .low)

/-- `PATTERN[d][i]`: bit `i` of word `PATTERN[d]` (20_memory.md R61). -/
def patternCell (c : Config) (d : Digit) (i : Index) : Bool := c.pattern[d].getLsbD i

/-- `PHYS_MAP[i]`, as a number (20_memory.md R62). -/
def physIndex (c : Config) (i : Index) : Nat := c.physMap[i].toNat

end Sys2Proof.Machine
end

