-- ==== Sys2Proof/Machine/Ops.lean ====
section
/-! DEFINITION. The shared operations: channel access, emitting an event, elapsed time, applying a reset, accepting the
next input. -/

namespace Sys2Proof.Machine

/-- `s.chan[c]` (00_scope.md R10). -/
def State.chan (s : State) : Chan → ButtonChannel
  | .A => s.chanA
  | .B => s.chanB

/-- Write the whole record `s.chan[c]`, state and stamp together (20_memory.md R74). -/
def State.setChan (s : State) (c : Chan) (v : ButtonChannel) : State :=
  match c with
  | .A => { s with chanA := v }
  | .B => { s with chanB := v }

/-- `s.chan[c].state <- v`: the stamp is not written (41_debounce.md R151). -/
def State.setChanState (s : State) (c : Chan) (v : BtnState) : State :=
  s.setChan c { s.chan c with state := v }

/-- `emit(e)`: append an event to the ordered event list (00_scope.md R10). -/
def emit (e : Event) (s : State) : State := { s with events := s.events ++ [e] }

/-- `elapsed(now, t) = (now - t) mod 2^TIME_BITS`, unsigned (10_state.md R45). -/
def elapsed (timeBits : Nat) (now t : Time) : Nat :=
  (((now : Int) - (t : Int)) % ((2 ^ timeBits : Nat) : Int)).toNat

/-- The time since a stamp, at the input being applied. -/
def State.elapsedSince (s : State) (t : Time) : Nat := elapsed s.cfg.timeBits s.now t

/-- The `TIME_BITS`-bit time value that a host's reading delivers (10_state.md R45, 45_control_loop.md R265 (1);
log 1). -/
def timeValue (timeBits : Nat) (reading : Nat) : Time := reading % 2 ^ timeBits

/-- RESET with time value `now0` (70_reset_and_hazards.md R340): the configuration stays and no event already emitted
is withdrawn (R341). -/
def applyReset (now0 : Time) (s : State) : State :=
  clearIllegal
    { s with
      chanA := { state := .released, t := now0 }
      chanB := { state := .released, t := now0 }
      digit := 0
      blink := { active := true, phase := false, t := now0 }
      indicator := 0b000#3
      fb := darkFrame }

/-- What an input carries besides its time value. -/
inductive Request where
  | reset
  | command (w : Word)
deriving DecidableEq, Repr

/-- The time value of an input, as the host reads it. -/
def inputReading : Input → Nat
  | .reset now => now
  | .cmd _ now => now

/-- What an input asks for. -/
def inputRequest : Input → Request
  | .reset _ => .reset
  | .cmd w _ => .command w

/-- Accept an input: its time value becomes `now`, and the inputs after it stay (45_control_loop.md R262). -/
def accept (x : Input) (rest : List Input) (s : State) : State :=
  { s with now := timeValue s.cfg.timeBits (inputReading x), inputs := rest }

/-- Fetch the next input of the stream (20_memory.md R72), if one is waiting. -/
def fetch (s : State) : Option (Request × State) :=
  match s.inputs with
  | [] => none
  | x :: rest => some (inputRequest x, accept x rest s)

/-- Between inputs the block is idle and keeps all state (60_exceptions.md R318; log 6). -/
def idle (s : State) : State := s

/-- Put a command word, with the current time value, before every input that waits (log 5). -/
def deliver (w : Word) (s : State) : State := { s with inputs := .cmd w s.now :: s.inputs }

end Sys2Proof.Machine
end

