-- ==== Sys2Proof/Machine/Blink.lean ====
section
/-! DEFINITION. The blink controller: the blink step of a tick and the BLINKEN command (44_blink.md). -/

namespace Sys2Proof.Machine

/-- The indicator's drive in a phase: the blink colour when lit, off otherwise (44_blink.md R230). -/
def drive (c : Config) (phase : Bool) : Rgb3 := if phase then c.blinkColor else 0b000#3

/-- The blink toggles at this tick: it is active and `elapsed(now, blink.t) >= BLINK_MS`, inclusive (44_blink.md
R230). -/
def blinkDue (s : State) : Bool := s.blink.active && decide (s.cfg.blinkMs ≤ s.elapsedSince s.blink.t)

/-- One toggle: the phase flips, the stamp becomes `now`, the indicator is driven and the event emitted (44_blink.md
R230). -/
def toggle (s : State) : State :=
  emit (.indicator (drive s.cfg (!s.blink.phase)))
    { s with
      blink := { s.blink with phase := !s.blink.phase, t := s.now }
      indicator := drive s.cfg (!s.blink.phase) }

/-- BLINK, the blink step of a tick (44_blink.md R230). -/
def blinkStep (s : State) : State := if blinkDue s then toggle s else s

/-- BLINKEN `en`: writes `blink.active` and nothing else (44_blink.md R232). -/
def execBlinken (en : Bool) (s : State) : Host.Outcome State Fault Refusal :=
  .next { s with blink := { s.blink with active := en } }

end Sys2Proof.Machine
end

