-- ==== Sys2Proof/Machine/Debounce.lean ====
section
/-! DEFINITION. The debounce step of a tick (41_debounce.md). -/

namespace Sys2Proof.Machine

/-- The window of channel `c` has closed: `elapsed(now, chan[c].t) >= DEBOUNCE_MS`, inclusive (41_debounce.md R141,
R143). -/
def windowClosed (c : Chan) (s : State) : Bool := decide (s.cfg.debounceMs ≤ s.elapsedSince (s.chan c).t)

/-- DEBOUNCE `c, lvl` (41_debounce.md R141): the result `confirmed`, and the state after it. -/
def debounce (c : Chan) (lvl : Level) (s : State) : Bool × State :=
  match (s.chan c).state with
  | .debouncing =>
    if windowClosed c s then
      if pressed lvl then (true, s.setChanState c .pressed)
      else (false, s.setChanState c .released)
    else (false, s)
  | .pressed => if pressed lvl then (false, s) else (false, s.setChanState c .released)
  | .released => (false, s)

end Sys2Proof.Machine
end

