-- ==== Sys2Proof/Machine/Renderer.lean ====
section
/-! DEFINITION. The renderer: bitmap lookup, permutation, channel multiplexer, SHOW, and the RENDER command
(43_renderer.md, 20_memory.md R61 to R65). -/

namespace Sys2Proof.Machine

/-- `pix(r, g, b)` under a channel order: the first-named channel in bits [23:16] (20_memory.md R65). -/
def pix (order : ChannelOrder) (k : Colour) : Pixel :=
  match order with
  | .RGB => k.r ++ k.g ++ k.b
  | .RBG => k.r ++ k.b ++ k.g
  | .GRB => k.g ++ k.r ++ k.b
  | .GBR => k.g ++ k.b ++ k.r
  | .BRG => k.b ++ k.r ++ k.g
  | .BGR => k.b ++ k.g ++ k.r

/-- `FGWORD = pix(cfg.FG_COLOR)` (43_renderer.md R193). -/
def fgWord (c : Config) : Pixel := pix c.channelOrder c.fgColor

/-- `MAPINV[p]`: the logical index `i` with `PHYS_MAP[i] = p` (20_memory.md R62). There is exactly one, since the map
of a well-formed configuration is a bijection; the default is never taken (log 14). -/
def mapInv (c : Config) (p : Index) : Index :=
  ((List.finRange 25).find? fun i => decide (physIndex c i = p.val)).getD p

/-- Stage 2 of `render(d)`: the cells of digit `d` in physical order (43_renderer.md R191). -/
def physCells (c : Config) (d : Digit) : Vector Bool 25 :=
  Vector.ofFn fun p => patternCell c d (mapInv c p)

/-- Stage 3 of `render(d)`: the channel multiplexer, a lit cell to `FGWORD`, an unset one to 0 (43_renderer.md R191,
R194). -/
def multiplex (c : Config) (cells : Vector Bool 25) : Frame :=
  Vector.ofFn fun p => if cells[p] then fgWord c else 0x000000#24

/-- `render(d)` (43_renderer.md R191): a function of the digit and the configuration alone (R197). -/
def render (c : Config) (d : Digit) : Frame := multiplex c (physCells c d)

/-- The scatter form of `render(d)`: write each logical cell at its physical index (43_renderer.md R192). -/
def renderScatter (c : Config) (d : Digit) : Frame :=
  (List.finRange 25).foldl
    (fun f i => f.setIfInBounds (physIndex c i) (if patternCell c d i then fgWord c else 0x000000#24)) darkFrame

/-- SHOW (43_renderer.md R196): render the current digit, write all of `fb` at once, hand the frame over. -/
def showDigit (s : State) : State :=
  emit (.frame (render s.cfg s.digit)) { s with fb := render s.cfg s.digit }

/-- RENDER (43_renderer.md R190). -/
def execRender (s : State) : Host.Outcome State Fault Refusal := .next (showDigit s)

end Sys2Proof.Machine
end

