-- ==== Sys2Proof/Machine/DigitCounter.lean ====
section
/-! DEFINITION. The digit counter (42_digit_counter.md). -/

namespace Sys2Proof.Machine

/-- INC: `(digit + 1) mod 10` (42_digit_counter.md R170). -/
def incDigit (d : Digit) : Digit := ⟨(d.val + 1) % 10, Nat.mod_lt _ (by decide)⟩

/-- DEC: `(digit + 9) mod 10` (42_digit_counter.md R171). -/
def decDigit (d : Digit) : Digit := ⟨(d.val + 9) % 10, Nat.mod_lt _ (by decide)⟩

/-- The digit after a confirmed press of channel `c` (42_digit_counter.md R172). -/
def countDigit (c : Chan) (d : Digit) : Digit :=
  match c with
  | .A => incDigit d
  | .B => decDigit d

/-- COUNT `c` (42_digit_counter.md R172): count, emit the press event with the new digit, then show it. -/
def count (c : Chan) (s : State) : State :=
  showDigit (emit (.press c (countDigit c s.digit)) { s with digit := countDigit c s.digit })

end Sys2Proof.Machine
end

