-- ==== Sys2Proof/Machine/ControlLoop.lean ====
section
/-! DEFINITION. The control loop: the TICK command (45_control_loop.md R260). -/

namespace Sys2Proof.Machine

/-- One channel's part of a tick: its debounce step, then COUNT when the step confirms a press (45_control_loop.md
R260). -/
def tickChannel (c : Chan) (lvl : Level) (s : State) : State :=
  match debounce c lvl s with
  | (true, s') => count c s'
  | (false, s') => s'

/-- TICK `lvlA, lvlB` (45_control_loop.md R260): channel A, then channel B, then the blink step. -/
def execTick (lvlA lvlB : Level) (s : State) : Host.Outcome State Fault Refusal :=
  .next (blinkStep (tickChannel .B lvlB (tickChannel .A lvlA s)))

end Sys2Proof.Machine
end

