-- ==== Sys2Proof/Machine/EdgeCapture.lean ====
section
/-! DEFINITION. Edge capture: the EDGE command (40_edge_capture.md). -/

namespace Sys2Proof.Machine

/-- EDGE `ch, lvl` (40_edge_capture.md R120): a press edge on a `Released` channel starts its window, with state and
stamp written together (20_memory.md R74); every other case changes nothing (R122). -/
def execEdge (ch : Chan) (lvl : Level) (s : State) : Host.Outcome State Fault Refusal :=
  if (s.chan ch).state = .released ∧ pressed lvl = true then
    .next (s.setChan ch { state := .debouncing, t := s.now })
  else
    .next s

end Sys2Proof.Machine
end

