-- ==== Sys2Proof/Machine/Dispatch.lean ====
section
/-! DEFINITION. One arm per constructor of Instr. -/

namespace Sys2Proof.Machine

/-- What a command does (45_control_loop.md R262). -/
def exec (i : Instr) (s : State) : Host.Outcome State Fault Refusal :=
  match i with
  | .edge ch lvl => Sys2Proof.Machine.execEdge ch lvl s
  | .tick lvlA lvlB => Sys2Proof.Machine.execTick lvlA lvlB s
  | .blinken en => Sys2Proof.Machine.execBlinken en s
  | .render => Sys2Proof.Machine.execRender s

end Sys2Proof.Machine
end

