-- ==== Sys2Proof/Machine/Step.lean ====
section
/-! DEFINITION. The step function (45_control_loop.md R262), and the placing of one command word. -/

namespace Sys2Proof.Machine

/-- Apply a fetched request to the state that has accepted it (45_control_loop.md R262). -/
def applyRequest (r : Request) (s : State) : Host.Outcome State Fault Refusal :=
  match r with
  | .reset => .next (applyReset s.now s)
  | .command w =>
    match decode w with
    | .legal i => exec i s
    | .illegal _ => .next (illegal s)

/-- One step: the next input of the stream, applied whole (45_control_loop.md R262, 20_memory.md R70); with none
waiting, the block is idle (60_exceptions.md R318). -/
def step (s : State) : Host.Outcome State Fault Refusal :=
  match fetch s with
  | none => .next (idle s)
  | some (r, s') => applyRequest r s'

/-- `s` with a word of the opcode table as its next input, at the time value `s` has (log 5, log 15). -/
def State.withFetchWord (s : State) (nbits w : Nat) : State := deliver (tableWord nbits w) s

end Sys2Proof.Machine
end

