-- ==== Sys2Proof/Machine/Assembler.lean ====
section
/-! DEFINITION. The assembler syntax of one input a line, `@<now> <operation>`, with the pseudo-instructions
(30_encoding.md R99, R100): what a line stands for, how it is written, and how it is read (log 16). -/

namespace Sys2Proof.Machine

/-- The operation of one line (30_encoding.md R99, R100). -/
inductive AsmOp where
  | edge (c : Chan) (l : Level)
  | tick (lA lB : Level)
  | blinken (e : Bool)
  | render
  | reset
  | press (c : Chan)
  | release (c : Chan)
  | idle
  | blinkOn
  | blinkOff
deriving DecidableEq, Repr

/-- One line: the decimal time value and the operation (30_encoding.md R99). -/
structure AsmLine where
  now : Nat
  op : AsmOp
deriving DecidableEq, Repr

/-- The command of an operation, none for RESET, which is not a word (30_encoding.md R99, R100). -/
def asmInstr : AsmOp → Option Instr
  | .edge c l => some (.edge c l)
  | .tick lA lB => some (.tick lA lB)
  | .blinken e => some (.blinken e)
  | .render => some .render
  | .reset => none
  | .press c => some (Pseudo.press c)
  | .release c => some (Pseudo.release c)
  | .idle => some Pseudo.idle
  | .blinkOn => some Pseudo.blinkOn
  | .blinkOff => some Pseudo.blinkOff

/-- The input that a line stands for (30_encoding.md R99). -/
def assemble (x : AsmLine) : Input :=
  match asmInstr x.op with
  | some i => .cmd (encode i) x.now
  | none => .reset x.now

/-- How a channel is written. -/
def chanText : Chan → String
  | .A => "A"
  | .B => "B"

/-- How a level is written: `LOW` is 0, pressed, and `HIGH` is 1, released. -/
def levelText : Level → String
  | .low => "LOW"
  | .high => "HIGH"

/-- How an operation is written (30_encoding.md R99, R100). -/
def opText : AsmOp → String
  | .edge c l => "EDGE " ++ chanText c ++ ", " ++ levelText l
  | .tick lA lB => "TICK " ++ levelText lA ++ ", " ++ levelText lB
  | .blinken e => "BLINKEN " ++ (if e then "1" else "0")
  | .render => "RENDER"
  | .reset => "RESET"
  | .press c => "PRESS " ++ chanText c
  | .release c => "RELEASE " ++ chanText c
  | .idle => "IDLE"
  | .blinkOn => "BLINKON"
  | .blinkOff => "BLINKOFF"

/-- How a line is written (30_encoding.md R99). -/
def lineText (x : AsmLine) : String := "@" ++ toString x.now ++ " " ++ opText x.op

/-- Drop the comment: the text after `;` (30_encoding.md R99). -/
def dropComment (cs : List Char) : List Char := cs.takeWhile fun ch => decide (ch ≠ ';')

/-- Close the word being read, if it holds a character. -/
def closeWord (word : List Char) (rest : List (List Char)) : List (List Char) :=
  if word.isEmpty then rest else word.reverse :: rest

/-- Cut a line into words and commas; spaces separate. `word` is the word being read, last character first. -/
def tokens (word : List Char) : List Char → List (List Char)
  | [] => closeWord word []
  | ' ' :: cs => closeWord word (tokens [] cs)
  | ',' :: cs => closeWord word ([','] :: tokens [] cs)
  | ch :: cs => tokens (ch :: word) cs

/-- Read a decimal number, `acc` being the value of the digits before. -/
def readDecimal (acc : Nat) : List Char → Option Nat
  | [] => some acc
  | ch :: cs =>
    if '0'.toNat ≤ ch.toNat ∧ ch.toNat ≤ '9'.toNat then readDecimal (10 * acc + (ch.toNat - '0'.toNat)) cs
    else none

/-- Read a channel name. -/
def readChan : List Char → Option Chan
  | ['A'] => some .A
  | ['B'] => some .B
  | _ => none

/-- Read a level name. -/
def readLevel : List Char → Option Level
  | ['L', 'O', 'W'] => some .low
  | ['H', 'I', 'G', 'H'] => some .high
  | _ => none

/-- Read the operation of a line from its words (30_encoding.md R99, R100). -/
def readOp : List (List Char) → Option AsmOp
  | [['E', 'D', 'G', 'E'], c, [','], l] =>
    (readChan c).bind fun c' => (readLevel l).map fun l' => .edge c' l'
  | [['T', 'I', 'C', 'K'], a, [','], b] =>
    (readLevel a).bind fun a' => (readLevel b).map fun b' => .tick a' b'
  | [['B', 'L', 'I', 'N', 'K', 'E', 'N'], ['0']] => some (.blinken false)
  | [['B', 'L', 'I', 'N', 'K', 'E', 'N'], ['1']] => some (.blinken true)
  | [['R', 'E', 'N', 'D', 'E', 'R']] => some .render
  | [['R', 'E', 'S', 'E', 'T']] => some .reset
  | [['P', 'R', 'E', 'S', 'S'], c] => (readChan c).map fun c' => .press c'
  | [['R', 'E', 'L', 'E', 'A', 'S', 'E'], c] => (readChan c).map fun c' => .release c'
  | [['I', 'D', 'L', 'E']] => some .idle
  | [['B', 'L', 'I', 'N', 'K', 'O', 'N']] => some .blinkOn
  | [['B', 'L', 'I', 'N', 'K', 'O', 'F', 'F']] => some .blinkOff
  | _ => none

/-- Read the time value `@<now>` of a line, which holds at least one digit. -/
def readNow : List Char → Option Nat
  | '@' :: ch :: cs => readDecimal 0 (ch :: cs)
  | _ => none

/-- Read one line (30_encoding.md R99). -/
def readLine (cs : List Char) : Option AsmLine :=
  match tokens [] (dropComment cs) with
  | t :: rest => (readNow t).bind fun n => (readOp rest).map fun o => { now := n, op := o }
  | [] => none

end Sys2Proof.Machine
end

