-- ==== Sys2Proof/Machine/Outputs.lean ====
section
/-! DEFINITION. The outputs of the block and the layouts at its boundary: the output ports (10_state.md R47), the codes
of the channel state and the digit (R32, R35), the flat packing of a frame and its wire order (20_memory.md R66, R67). -/

namespace Sys2Proof.Machine

/-- `digit_out` (10_state.md R47), in the four-bit code of R35 (log 17). -/
def digitOut (s : State) : BitVec 4 := BitVec.ofNat 4 s.digit.val

/-- `indicator_out` (10_state.md R47). -/
def indicatorOut (s : State) : Rgb3 := s.indicator

/-- `fb_out` (10_state.md R47). -/
def fbOut (s : State) : Frame := s.fb

/-- `err_out` (10_state.md R47). -/
def errOut (s : State) : Bool := s.errIllegal

/-- The red channel of the indicator: bit 2 (10_state.md R39). -/
def indicatorRed (v : Rgb3) : Bool := v.getLsbD 2

/-- The green channel of the indicator: bit 1 (10_state.md R39). -/
def indicatorGreen (v : Rgb3) : Bool := v.getLsbD 1

/-- The blue channel of the indicator: bit 0 (10_state.md R39). -/
def indicatorBlue (v : Rgb3) : Bool := v.getLsbD 0

/-- The two-bit code of a channel state (10_state.md R32). -/
def btnCode : BtnState → BitVec 2
  | .released => 0b00#2
  | .debouncing => 0b01#2
  | .pressed => 0b10#2

/-- The channel state of a two-bit code; 0b11 stands for none (10_state.md R32). -/
def btnOfCode (v : BitVec 2) : Option BtnState :=
  if v = 0b00#2 then some .released
  else if v = 0b01#2 then some .debouncing
  else if v = 0b10#2 then some .pressed
  else none

/-- The digit of a four-bit code; 10 to 15 stand for none (10_state.md R35). -/
def digitOfCode (v : BitVec 4) : Option Digit :=
  if h : v.toNat < 10 then some ⟨v.toNat, h⟩ else none

/-- A frame on one 600-bit bus: pixel `p` in bits `[24p + 23 : 24p]` (20_memory.md R67). -/
def flatFrame (f : Frame) : BitVec 600 :=
  f.toList.foldr (fun px acc => (acc <<< 24) ||| px.setWidth 600) 0#600

/-- The bits of a pixel word in the order they are sent: bit 23 first (20_memory.md R66). -/
def wirePixel (px : Pixel) : List Bool := (List.range 24).map fun k => px.getLsbD (23 - k)

/-- The bits of a frame in the order they are sent: `f[0]` first (20_memory.md R66). -/
def wireFrame (f : Frame) : List Bool := f.toList.flatMap wirePixel

/-- `ROW_MAJOR`: `PHYS_MAP[i] = i` (43_renderer.md R199). -/
def rowMajor : Vector (BitVec 5) 25 := Vector.ofFn fun i => BitVec.ofNat 5 i.val

/-- `SERP_FIX`: odd rows reversed, top row first (43_renderer.md R199). -/
def serpFix : Vector (BitVec 5) 25 :=
  Vector.ofFn fun i =>
    BitVec.ofNat 5 (if (i.val / 5) % 2 = 0 then i.val else 5 * (i.val / 5) + (4 - i.val % 5))

/-- `ROT_FIX`: `PHYS_MAP[i] = (i + 1) mod 25` (43_renderer.md R199). -/
def rotFix : Vector (BitVec 5) 25 := Vector.ofFn fun i => BitVec.ofNat 5 ((i.val + 1) % 25)

end Sys2Proof.Machine
end

