-- ==== Sys2Proof/Safety.lean ====
section
/-! DEFINITION. What counts as a safe run, in the terms the statements use: the invariants of a reachable state, the
host's contract, and words for what a step fetched, confirmed and emitted. -/

namespace Sys2Proof.Machine

/-- The state right after a reset input at `now0`, for any configuration (10_state.md R48). -/
def startState (c : Config) (now0 : Time) : State where
  cfg := c
  chanA := { state := .released, t := now0 }
  chanB := { state := .released, t := now0 }
  digit := 0
  blink := { active := true, phase := false, t := now0 }
  indicator := 0b000#3
  fb := darkFrame
  errIllegal := false
  now := now0
  inputs := []
  events := []

/-- The states a run can reach: start after a reset, let the host append inputs, take steps. -/
inductive Reachable : State → Prop where
  | start (c : Config) (now0 : Time) (h : now0 < 2 ^ c.timeBits) : Reachable (startState c now0)
  | supply (s : State) (xs : List Input) (h : Reachable s) : Reachable { s with inputs := s.inputs ++ xs }
  | step (s t : State) (h : Reachable s) (hs : Machine.step s = .next t) : Reachable t

/-- The invariant of 10_state.md R46, with the widths of the stamps (R33, R38, R45). That the digit is at most 9 and a
channel is in one of three states is in their types. -/
structure Inv (s : State) : Prop where
  indicator_follows_phase : s.indicator = drive s.cfg s.blink.phase
  pixel_dark_or_lit : ∀ p : Index, s.fb[p] = 0x000000#24 ∨ s.fb[p] = fgWord s.cfg
  stampA_width : s.chanA.t < 2 ^ s.cfg.timeBits
  stampB_width : s.chanB.t < 2 ^ s.cfg.timeBits
  blink_width : s.blink.t < 2 ^ s.cfg.timeBits
  now_width : s.now < 2 ^ s.cfg.timeBits

/-- The frame buffer is dark with the digit still 0 (no frame since reset), or shows the digit (42_digit_counter.md
R172, R175; 43_renderer.md R195, R196). -/
def FrameShowsDigit (s : State) : Prop :=
  (s.fb = darkFrame ∧ s.digit = 0) ∨ s.fb = render s.cfg s.digit

/-! What a step is about to apply. -/

/-- The next input is a reset. -/
def NextIsReset (s : State) : Prop := ∃ n rest, s.inputs = .reset n :: rest

/-- The next input is a word that decodes to `i`. -/
def NextIsCommand (s : State) (i : Instr) : Prop :=
  ∃ w n rest, s.inputs = .cmd w n :: rest ∧ decode w = .legal i

/-- The input is a word that decodes to an EDGE of channel `c` with level low: a press edge. -/
def isPressEdge (c : Chan) : Input → Bool
  | .reset _ => false
  | .cmd w _ => decide (decode w = .legal (.edge c .low))

/-- The input is the reset input. -/
def isReset : Input → Bool
  | .reset _ => true
  | .cmd _ _ => false

/-- The input is a word that decodes to BLINKEN 1. -/
def isBlinkOn : Input → Bool
  | .reset _ => false
  | .cmd w _ => decide (decode w = .legal (.blinken true))

/-! What a tick does, in the words of the rules. -/

/-- A tick with level `lvl` confirms a press of channel `c` (the third row of the table of 41_debounce.md R141). -/
def confirms (s : State) (c : Chan) (lvl : Level) : Bool :=
  decide ((s.chan c).state = .debouncing ∧ s.cfg.debounceMs ≤ elapsed s.cfg.timeBits s.now (s.chan c).t ∧ lvl = .low)

/-- A tick toggles the blink (44_blink.md R230). -/
def toggles (s : State) : Bool :=
  decide (s.blink.active = true ∧ s.cfg.blinkMs ≤ elapsed s.cfg.timeBits s.now s.blink.t)

/-- The column "state after" of the table of 41_debounce.md R141: `closed` is the column E, `low` the column
pressed(lvl). -/
def stateAfter (before : BtnState) (closed low : Bool) : BtnState :=
  match before, closed, low with
  | .released, _, _ => .released
  | .debouncing, false, _ => .debouncing
  | .debouncing, true, true => .pressed
  | .debouncing, true, false => .released
  | .pressed, _, true => .pressed
  | .pressed, _, false => .released

/-! What a list of events shows. -/

/-- The event is a confirmed press of channel `c`. -/
def isPress (c : Chan) : Event → Bool
  | .press c' _ => decide (c' = c)
  | .frame _ => false
  | .indicator _ => false

/-- The event is a frame. -/
def isFrame : Event → Bool
  | .press _ _ => false
  | .frame _ => true
  | .indicator _ => false

/-- An event with the pixels of a frame left out, all else as it is. -/
def blankFrame : Event → Event
  | .press c d => .press c d
  | .frame _ => .frame darkFrame
  | .indicator v => .indicator v

/-- How many presses of channel `c` a list of events shows. -/
def presses (c : Chan) (es : List Event) : Nat := es.countP (isPress c)

/-- How many times channel `c` enters `Debouncing` in the next `k` steps (41_debounce.md R146). -/
def entries (c : Chan) : Nat → State → Nat
  | 0, _ => 0
  | k + 1, s =>
    match Machine.step s with
    | .next t =>
      (if (s.chan c).state ≠ .debouncing ∧ (t.chan c).state = .debouncing then 1 else 0) + entries c k t
    | .fault _ => 0
    | .refused _ => 0

/-- How many pixels of a frame are lit (43_renderer.md R198). -/
def litCount (f : Frame) : Nat := f.toList.countP fun px => decide (px ≠ 0x000000#24)

/-- How many cells of digit `d`'s pattern are set (43_renderer.md R198). -/
def setBits (c : Config) (d : Digit) : Nat := (List.finRange 25).countP fun i => patternCell c d i

/-! The host's contract (45_control_loop.md R265). The step never asks for it (log 10). -/

/-- R265 (1): a stamp taken at reading `t0` is compared at reading `t1`, not earlier and before `2 ^ TIME_BITS` ms have
passed. -/
abbrev Fresh (timeBits t0 t1 : Nat) : Prop := t0 ≤ t1 ∧ t1 < t0 + 2 ^ timeBits

/-- The command that an input carries, if it is a legal one. -/
def inputInstr : Input → Option Instr
  | .reset _ => none
  | .cmd w _ =>
    match decode w with
    | .legal i => some i
    | .illegal _ => none

/-- The input is a TICK. -/
def isTick (x : Input) : Bool :=
  match inputInstr x with
  | some (.tick _ _) => true
  | some (.edge _ _) | some (.blinken _) | some .render | none => false

/-- The frames among a list of events, in order. -/
def framesOf (es : List Event) : List Frame :=
  es.filterMap fun e =>
    match e with
    | .frame f => some f
    | .press _ _ | .indicator _ => none

/-- What the host knows and the block does not keep: the levels of the pins, the reading of its millisecond counter at
the last input and at each stamp, before they are narrowed to `TIME_BITS` bits, the reading at which the next TICK is
due, and the frames that the driver has accepted. It is no state of the block (log 18). -/
structure HostView where
  pinA : Level
  pinB : Level
  /-- The reading at the last input. -/
  reading : Nat
  /-- The reading at which the next TICK is due. -/
  tickDue : Nat
  /-- The reading at which `chan[A].t` was taken. -/
  stampA : Nat
  /-- The reading at which `chan[B].t` was taken. -/
  stampB : Nat
  /-- The reading at which `blink.t` was taken. -/
  stampBlink : Nat
  /-- The frames that the driver has accepted, the first one first. -/
  accepted : List Frame
deriving DecidableEq, Repr

/-- The level of the pin of a channel. -/
def HostView.pin (h : HostView) : Chan → Level
  | .A => h.pinA
  | .B => h.pinB

/-- The reading at which the stamp of a channel was taken. -/
def HostView.stamp (h : HostView) : Chan → Nat
  | .A => h.stampA
  | .B => h.stampB

/-- The host's view right after a reset input at reading `n`, with the pins at `a` and `b`, the first TICK due at `due`
and no frame emitted. -/
def HostView.atReset (a b : Level) (n due : Nat) : HostView where
  pinA := a
  pinB := b
  reading := n
  tickDue := due
  stampA := n
  stampB := n
  stampBlink := n
  accepted := []

/-- The readings of the stamps that an input compares with its own: those of the `Debouncing` channels and of an active
blink at a TICK (41_debounce.md R141, 44_blink.md R230), none at any other input. -/
def HostView.compared (h : HostView) (s : State) (x : Input) : List Nat :=
  if isTick x then
    (if s.chanA.state = .debouncing then [h.stampA] else []) ++
      (if s.chanB.state = .debouncing then [h.stampB] else []) ++ (if s.blink.active then [h.stampBlink] else [])
  else []

/-- R265 (1): the counter's readings do not decrease, and every stamp that the input compares is fresh. -/
def HostView.timeAllows (h : HostView) (s : State) (x : Input) : Bool :=
  decide (h.reading ≤ inputReading x) &&
    (h.compared s x).all fun t0 => decide (Fresh s.cfg.timeBits t0 (inputReading x))

/-- R265 (2), (3): every EDGE is a transition and carries the level after it; every TICK carries the levels that the
pins have, so none of their transitions was left out. DESIGN CHOICE (log 19): for a pin whose transition falls inside a
tick, where R266 leaves the order to the host and is silent on the level, the TICK carries the level after the EDGEs
applied before it: the new level after the EDGE, the old level before it. -/
def HostView.pinsAllow (h : HostView) (_ : State) (x : Input) : Bool :=
  match inputInstr x with
  | some (.edge c l) => decide (l ≠ h.pin c)
  | some (.tick lA lB) => decide (lA = h.pinA ∧ lB = h.pinB)
  | some (.blinken _) | some .render | none => true

/-- R265 (4): a TICK comes at the reading at which it is due, and no input comes later than that while it is still to
come. -/
def HostView.tickAllows (h : HostView) (_ : State) (x : Input) : Bool :=
  if isTick x then decide (inputReading x = h.tickDue) else decide (inputReading x ≤ h.tickDue)

/-- The host's view after the input `x`, which takes the block from `s` to `t`: an EDGE gives the level of its pin, a
TICK makes the next one due `POLL_MS` ms later, a stamp is taken by a reset, by an entry into `Debouncing` or by a
toggle, and the driver accepts what was emitted (R265 (5)). -/
def HostView.after (h : HostView) (x : Input) (s t : State) : HostView where
  pinA := match inputInstr x with
    | some (.edge .A l) => l
    | some (.edge .B _) | some (.tick _ _) | some (.blinken _) | some .render | none => h.pinA
  pinB := match inputInstr x with
    | some (.edge .B l) => l
    | some (.edge .A _) | some (.tick _ _) | some (.blinken _) | some .render | none => h.pinB
  reading := inputReading x
  tickDue := if isTick x then h.tickDue + s.cfg.pollMs else h.tickDue
  stampA :=
    if isReset x || decide (s.chanA.state ≠ .debouncing ∧ t.chanA.state = .debouncing) then inputReading x else h.stampA
  stampB :=
    if isReset x || decide (s.chanB.state ≠ .debouncing ∧ t.chanB.state = .debouncing) then inputReading x else h.stampB
  stampBlink := if isReset x || decide (s.blink.phase ≠ t.blink.phase) then inputReading x else h.stampBlink
  accepted := h.accepted ++ framesOf (t.events.drop s.events.length)

/-- Through the steps that apply the inputs of a list, each input is one that `allows` admits at the host's view and the
block's state before it. -/
def keeps (allows : HostView → State → Input → Bool) : List Input → HostView → State → Bool
  | [], _, _ => true
  | x :: xs, h, s =>
    allows h s x &&
      match Machine.step { s with inputs := x :: xs } with
      | .next t => keeps allows xs (h.after x s t) t
      | .fault _ => true
      | .refused _ => true

/-- R265 (1), for the inputs that wait: the stamps of the block are the host's readings of them, narrowed; and no
reading decreases and no stamp is compared when it is stale. A claim about the source's behaviour takes this as a
premise (70_reset_and_hazards.md R354, R355). -/
structure TimeContract (h : HostView) (s : State) : Prop where
  channel_stamps : ∀ c, (s.chan c).t = timeValue s.cfg.timeBits (h.stamp c)
  blink_stamp : s.blink.t = timeValue s.cfg.timeBits h.stampBlink
  time : keeps HostView.timeAllows s.inputs h s = true

/-- R265 (4), for the inputs that wait: the next TICK is due within `POLL_MS`, and every TICK comes when it is due. It
says nothing of any stamp. -/
structure TickContract (h : HostView) (s : State) : Prop where
  next_tick : h.reading ≤ h.tickDue ∧ h.tickDue ≤ h.reading + s.cfg.pollMs
  ticks : keeps HostView.tickAllows s.inputs h s = true

/-- The host's contract (R265 (1) to (5)) for the inputs that wait. -/
structure HostContract (h : HostView) (s : State) : Prop extends TimeContract h s, TickContract h s where
  pins : keeps HostView.pinsAllow s.inputs h s = true
  driver : h.accepted = framesOf s.events

/-- The first `k` inputs of an endless stream (45_control_loop.md R261). -/
def firstInputs (xs : Nat → Input) (k : Nat) : List Input := (List.range k).map xs

/-- R265 (4) for an endless stream, "forever": every TICK of it comes when it is due, and the TICKs never end. -/
structure TicksForever (h : HostView) (s : State) (xs : Nat → Input) : Prop where
  on_time : ∀ k, TickContract h { s with inputs := firstInputs xs k }
  ticks_forever : ∀ n, ∃ m, n ≤ m ∧ isTick (xs m) = true

/-- The host's contract (R265 (1) to (5)) for an endless stream: it holds of every beginning of it, and the TICKs never
end. -/
structure HostContractForever (h : HostView) (s : State) (xs : Nat → Input) : Prop extends TicksForever h s xs where
  beginning : ∀ k, HostContract h { s with inputs := firstInputs xs k }

/-- The input is a word that decodes to an EDGE of channel `c` with level high: a release edge. -/
def isReleaseEdge (c : Chan) (x : Input) : Bool := decide (inputInstr x = some (.edge c .high))

/-- The input is a word that decodes to BLINKEN 0. -/
def isBlinkOff (x : Input) : Bool := decide (inputInstr x = some (.blinken false))

/-- The TICK inputs at the readings `t0 + P`, `t0 + 2P`, …, `t0 + nP`, with the levels `lv j` at the `j`-th
(44_blink.md R234). -/
def tickStream (t0 P n : Nat) (lv : Nat → Chan → Level) : List Input :=
  (List.range n).map fun j => .cmd (encode (.tick (lv (j + 1) .A) (lv (j + 1) .B))) (t0 + (j + 1) * P)

end Sys2Proof.Machine
end

