-- ==== Sys2Proof/Certificates/Slice0/Obligations.lean ====
section
/-! DEFINITION. The statements for the provers, in the order of the spec's files. -/

open Sys2Proof Sys2Proof.Machine

/-! ## Time (10_state.md) -/

/-- R45: elapsed time is the modular difference of two `TIME_BITS`-bit values. -/
def Obligations.ElapsedIsModularSubtraction : Prop :=
  ∀ (w : Nat) (now t : BitVec w), elapsed w now.toNat t.toNat = (now - t).toNat

/-- 70_reset_and_hazards.md, "Wrap of time" (R354), with the premise of the host contract: across a wrap, elapsed time is
exact while fewer than `2 ^ TIME_BITS` ms pass between the two readings; so, under R265 (1), every elapsed time that a
TICK compares is the host's own. -/
def Obligations.ElapsedIsExactWithinOneWrap : Prop :=
  (∀ w t0 t1 : Nat, Fresh w t0 t1 → elapsed w (timeValue w t1) (timeValue w t0) = t1 - t0) ∧
  ∀ (h : HostView) (s : State) (w : Word) (n : Nat) (rest : List Input) (lvlA lvlB : Level), TimeContract h s →
    s.inputs = .cmd w n :: rest → decode w = .legal (.tick lvlA lvlB) →
    (∀ c, (s.chan c).state = .debouncing →
      h.stamp c ≤ n ∧
        elapsed s.cfg.timeBits (timeValue s.cfg.timeBits n) (s.chan c).t = n - h.stamp c) ∧
    (s.blink.active = true →
      h.stampBlink ≤ n ∧
        elapsed s.cfg.timeBits (timeValue s.cfg.timeBits n) s.blink.t = n - h.stampBlink)

/-! ## Reset and state (10_state.md, 70_reset_and_hazards.md) -/

/-- R48: what the state right after reset holds, with `now0` the time value of the reset input (the values other than the
digit's are decisions D3, D7, D8 and D9 of the spec; `now0` is open, log 4). -/
def Obligations.ResetStateHoldsResetValues : Prop :=
  ∃ now0 : Time, now0 < 2 ^ State.reset.cfg.timeBits ∧
    State.reset.chanA = { state := .released, t := now0 } ∧ State.reset.chanB = { state := .released, t := now0 } ∧
    State.reset.digit = 0 ∧ State.reset.blink = { active := true, phase := false, t := now0 } ∧
    State.reset.indicator = 0b000#3 ∧ (∀ p : Index, State.reset.fb[p] = 0x000000#24) ∧
    State.reset.errIllegal = false

/-- 70_reset_and_hazards.md section 1 (R340, R341) and 45_control_loop.md section "The step function" (R262): the reset
input sets every field of R48 at its own time value, whatever the state was; it keeps the configuration and withdraws no
event. That the time value is the reading modulo `2 ^ TIME_BITS` (log 1), that the input leaves the stream and the rest
waits (log 5), and the event log as the events already emitted (log 7) are the model's. -/
def Obligations.ResetInputReplacesState : Prop :=
  ∀ (s : State) (n : Nat) (rest : List Input), s.inputs = .reset n :: rest →
    ∃ t, step s = .next t ∧
      (∀ c, t.chan c = { state := .released, t := timeValue s.cfg.timeBits n }) ∧ t.digit = 0 ∧
      t.blink = { active := true, phase := false, t := timeValue s.cfg.timeBits n } ∧ t.indicator = 0b000#3 ∧
      (∀ p : Index, t.fb[p] = 0x000000#24) ∧ t.errIllegal = false ∧
      t.cfg = s.cfg ∧ t.events = s.events ∧ t.inputs = rest

/-- R34: the only ways a step changes a channel's state, beside a reset. -/
def Obligations.ChannelStateTransitions : Prop :=
  ∀ (s t : State) (c : Chan), step s = .next t → (t.chan c).state ≠ (s.chan c).state →
    (NextIsReset s ∧ (t.chan c).state = .released) ∨
    (∃ lvl, NextIsCommand s (.edge c lvl) ∧ (s.chan c).state = .released ∧ (t.chan c).state = .debouncing) ∨
    (∃ lvlA lvlB, NextIsCommand s (.tick lvlA lvlB) ∧
      (((s.chan c).state = .debouncing ∧ (t.chan c).state = .pressed) ∨
       ((s.chan c).state = .debouncing ∧ (t.chan c).state = .released) ∨
       ((s.chan c).state = .pressed ∧ (t.chan c).state = .released)))

/-- R33: a stamp is written by the press edge that opens the window, beside a reset; while its channel is not
`Debouncing` no command reads it; while it is, no step but a TICK reads it, and a TICK reads of it only whether the window
has closed. -/
def Obligations.StampWrittenByPressEdgeAndReadInWindowOnly : Prop :=
  (∀ (s t : State) (c : Chan), step s = .next t → (t.chan c).t ≠ (s.chan c).t →
    NextIsReset s ∨
    (NextIsCommand s (.edge c .low) ∧ (s.chan c).state = .released ∧ t.chan c = { state := .debouncing, t := t.now })) ∧
  (∀ (i : Instr) (s t₁ t₂ : State) (c : Chan) (u : Time), (s.chan c).state ≠ .debouncing →
    exec i s = .next t₁ → exec i (s.setChan c { s.chan c with t := u }) = .next t₂ →
    ∃ v, t₂ = t₁.setChan c { t₁.chan c with t := v }) ∧
  (∀ (s t₁ t₂ : State) (c : Chan) (u : Time), (∀ lvlA lvlB, ¬NextIsCommand s (.tick lvlA lvlB)) →
    step s = .next t₁ → step (s.setChan c { s.chan c with t := u }) = .next t₂ →
    ∃ v, t₂ = t₁.setChan c { t₁.chan c with t := v }) ∧
  (∀ (s t₁ t₂ : State) (c : Chan) (u : Time) (lv : Chan → Level),
    (s.cfg.debounceMs ≤ elapsed s.cfg.timeBits s.now (s.chan c).t ↔
      s.cfg.debounceMs ≤ elapsed s.cfg.timeBits s.now u) →
    exec (.tick (lv .A) (lv .B)) s = .next t₁ →
    exec (.tick (lv .A) (lv .B)) (s.setChan c { s.chan c with t := u }) = .next t₂ →
    t₂ = t₁.setChan c { t₁.chan c with t := u })

/-- R32, R35, R47: the codes of the channel state, and `digit_out`, whose code is the digit; 0b11 and 10 to 15 stand for
nothing. That the port has the four-bit code is the model's reading (log 17). -/
def Obligations.StateAndDigitCodes : Prop :=
  btnCode .released = 0b00#2 ∧ btnCode .debouncing = 0b01#2 ∧ btnCode .pressed = 0b10#2 ∧
  (∀ s : State, (digitOut s).toNat = s.digit.val) ∧
  (∀ (v : BitVec 4) (d : Digit), digitOfCode v = some d ↔ v.toNat = d.val) ∧
  (∀ (v : BitVec 2) (b : BtnState), btnOfCode v = some b ↔ v = btnCode b) ∧ btnOfCode 0b11#2 = none ∧
  (∀ s : State, digitOfCode (digitOut s) = some s.digit) ∧ (∀ v : BitVec 4, 10 ≤ v.toNat → digitOfCode v = none)

/-- R47, R39: the other ports show their fields; red, green and blue stand in bits 2, 1 and 0 of the indicator, so that
its three channels together are its value. `digit_out` is in StateAndDigitCodes, and the event list of a step, R47's last
output, in StepAppendsAtMostFiveEvents. -/
def Obligations.OutputPortsShowState : Prop :=
  (∀ s : State, indicatorOut s = s.indicator ∧ errOut s = s.errIllegal ∧ ∀ p : Index, (fbOut s)[p] = s.fb[p]) ∧
  (∀ v : Rgb3, indicatorRed v = v.getLsbD 2 ∧ indicatorGreen v = v.getLsbD 1 ∧ indicatorBlue v = v.getLsbD 0 ∧
    BitVec.ofBool (indicatorRed v) ++ BitVec.ofBool (indicatorGreen v) ++ BitVec.ofBool (indicatorBlue v) = v) ∧
  indicatorRed 0b100#3 = true ∧ indicatorGreen 0b010#3 = true ∧ indicatorBlue 0b001#3 = true

/-- 10_state.md section 4 (R46, which the spec marks as derived), with the widths of the stamps: every step keeps the
invariant, from every state that meets it. -/
def Obligations.StepKeepsInv : Prop :=
  ∀ s t : State, Inv s → step s = .next t → Inv t

/-- The invariants hold right after reset, at `State.reset` and for every configuration and every time value. -/
def Obligations.InvariantsHoldAfterReset : Prop :=
  Inv State.reset ∧ FrameShowsDigit State.reset ∧
  ∀ (c : Config) (now0 : Time), now0 < 2 ^ c.timeBits →
    Inv (startState c now0) ∧ FrameShowsDigit (startState c now0)

/-- The frame buffer is dark at digit 0, or shows the digit: every step keeps this, since every change of the digit is
rendered in the same step (42_digit_counter.md, "no batching, no deferred update"; 43_renderer.md "Handing a frame
over"). -/
def Obligations.StepKeepsFrameShowingDigit : Prop :=
  ∀ s t : State, FrameShowsDigit s → step s = .next t → FrameShowsDigit t

/-- Both invariants hold in every state a run reaches: `Inv` by 10_state.md section 4 (R46) with the widths of the stamps
(R33, R38), and `FrameShowsDigit` by 42_digit_counter.md (R172) and 43_renderer.md (R195, R196). -/
def Obligations.ReachableStatesMeetInvariants : Prop :=
  ∀ s : State, Reachable s → Inv s ∧ FrameShowsDigit s

/-- 10_state.md R59 and 20_memory.md section 1: no step writes the configuration. The configuration as a field of State
is the model's choice (log 2). -/
def Obligations.ConfigurationIsNeverWritten : Prop :=
  ∀ (k : Nat) (s t : State), Host.Core.run Sys2Proof.core k s = .next t → t.cfg = s.cfg

/-! ## Tables and layouts (20_memory.md) -/

/-- R62: `MAPINV` is the inverse of the map. -/
def Obligations.MapInvIsInverseOfMap : Prop :=
  ∀ (c : Config) (i p : Index), mapInv c p = i ↔ physIndex c i = p.val

/-- R65: where each channel stands in a pixel word, for the six orders. -/
def Obligations.PixelWordLayout : Prop :=
  ∀ (k : Colour) (order : ChannelOrder) (first second third : BitVec 8),
    (first, second, third) =
      (match order with
        | .RGB => (k.r, k.g, k.b)
        | .RBG => (k.r, k.b, k.g)
        | .GRB => (k.g, k.r, k.b)
        | .GBR => (k.g, k.b, k.r)
        | .BRG => (k.b, k.r, k.g)
        | .BGR => (k.b, k.g, k.r)) →
    (pix order k).extractLsb' 16 8 = first ∧ (pix order k).extractLsb' 8 8 = second ∧
      (pix order k).extractLsb' 0 8 = third

/-- R66: `f[0]` is sent first and `f[24]` last, and of each word bit 23 first: 600 bits in all. -/
def Obligations.WireOrderOfFrame : Prop :=
  ∀ f : Frame, (wireFrame f).length = 600 ∧
    ∀ (p : Index) (k : Fin 24), (wireFrame f)[24 * p.val + k.val]? = some (f[p].getLsbD (23 - k.val))

/-- R67: pixel `p` of a frame is the slice `[24p + 23 : 24p]` of the 600-bit bus. -/
def Obligations.FlatFrameSlices : Prop :=
  ∀ (f : Frame) (p : Index), (flatFrame f).extractLsb' (24 * p.val) 24 = f[p]

/-! ## Encoding (30_encoding.md) -/

/-- Decoding and encoding agree in both directions: every instruction decodes from its word, and a word that decodes to
an instruction is its word (30_encoding.md sections 1 and 2). -/
def Obligations.DecodeEncodeAgree : Prop :=
  (∀ i : Instr, i.wf = true → decode (encode i) = .legal i) ∧
  (∀ (w : Word) (i : Instr), decode w = .legal i → encode i = w)

/-- R98: which words are Illegal. -/
def Obligations.IllegalWordsExactly : Prop :=
  ∀ w : Word, (∃ why, decode w = .illegal why) ↔
    (opField w = 0x0#4 ∨ 0x5 ≤ (opField w).toNat ∨ rsvField w ≠ 0#10 ∨
      (opField w = 0x3#4 ∧ bBit w = true) ∨ (opField w = 0x4#4 ∧ (aBit w = true ∨ bBit w = true)))

/-- The opcode map of 30_encoding.md section 2 and opcode_table.json: match and mask of each row, and the eleven legal
words. -/
def Obligations.OpcodeMapMatchesDecode : Prop :=
  ∀ w : Word,
    ((∃ ch lvl, decode w = .legal (.edge ch lvl)) ↔ w &&& 0xF3FF#16 = 0x1000#16) ∧
    ((∃ lvlA lvlB, decode w = .legal (.tick lvlA lvlB)) ↔ w &&& 0xF3FF#16 = 0x2000#16) ∧
    ((∃ en, decode w = .legal (.blinken en)) ↔ w &&& 0xF7FF#16 = 0x3000#16) ∧
    (decode w = .legal .render ↔ w &&& 0xFFFF#16 = 0x4000#16) ∧
    ((∃ i, decode w = .legal i) ↔
      w ∈ [0x1000#16, 0x1400#16, 0x1800#16, 0x1C00#16, 0x2000#16, 0x2400#16, 0x2800#16, 0x2C00#16, 0x3000#16,
        0x3800#16, 0x4000#16])

/-- Words written out from the patterns of 30_encoding.md R93 to R96 decode to their commands. -/
def Obligations.SampleWordsDecode : Prop :=
  decode 0b0001_1_0_0000000000#16 = .legal (.edge .B .low) ∧ decode 0b0001_0_1_0000000000#16 = .legal (.edge .A .high) ∧
  decode 0b0010_0_1_0000000000#16 = .legal (.tick .low .high) ∧ decode 0b0010_1_0_0000000000#16 = .legal (.tick .high .low) ∧
  decode 0b0011_1_0_0000000000#16 = .legal (.blinken true) ∧ decode 0b0100_0_0_0000000000#16 = .legal .render

/-- R100: each pseudo-instruction stands for its one word. -/
def Obligations.PseudoInstructionWords : Prop :=
  encode (Pseudo.press .A) = 0x1000#16 ∧ encode (Pseudo.press .B) = 0x1800#16 ∧
  encode (Pseudo.release .A) = 0x1400#16 ∧ encode (Pseudo.release .B) = 0x1C00#16 ∧ encode Pseudo.idle = 0x2C00#16 ∧
  encode Pseudo.blinkOn = 0x3800#16 ∧ encode Pseudo.blinkOff = 0x3000#16

/-! ## EDGE (40_edge_capture.md) -/

/-- R120, R122: EDGE completes in every state; it opens the window on a press edge of a `Released` channel, with state
and stamp, and changes nothing in every other case. -/
def Obligations.EdgeOpensWindowOrIsIgnored : Prop :=
  ∀ (ch : Chan) (lvl : Level) (s : State),
    exec (.edge ch lvl) s =
      .next (if (s.chan ch).state = .released ∧ lvl = .low then s.setChan ch { state := .debouncing, t := s.now } else s)

/-- R121: EDGE changes nothing but its own channel and emits nothing. It compares no time: two states that agree in the
channel's state alone, with any stamps, any time values and any intervals, end with that channel in the same state, and
its stamp is `now` in both or kept in both. -/
def Obligations.EdgeTouchesOnlyItsChannel : Prop :=
  ∀ (ch : Chan) (lvl : Level) (s t : State), exec (.edge ch lvl) s = .next t →
    (∀ c, c ≠ ch → t.chan c = s.chan c) ∧ t.digit = s.digit ∧ t.blink = s.blink ∧ t.indicator = s.indicator ∧
    t.fb = s.fb ∧ t.errIllegal = s.errIllegal ∧ t.events = s.events ∧ t.cfg = s.cfg ∧ t.now = s.now ∧
    t.inputs = s.inputs ∧
    (∀ s₂ t₂ : State, (s₂.chan ch).state = (s.chan ch).state → exec (.edge ch lvl) s₂ = .next t₂ →
      (t₂.chan ch).state = (t.chan ch).state ∧
      (((t.chan ch).t = s.now ∧ (t₂.chan ch).t = s₂.now) ∨
        ((t.chan ch).t = (s.chan ch).t ∧ (t₂.chan ch).t = (s₂.chan ch).t)))

/-- 40_edge_capture.md, "Repeated EDGE is idempotent" (R124, which the spec marks as derived): on a channel that has left
`Released`, EDGE changes nothing; a second press edge, at any later time value, leaves the stamp of the first. -/
def Obligations.RepeatedEdgeIsIdempotent : Prop :=
  (∀ (ch : Chan) (lvl : Level) (s : State), (s.chan ch).state ≠ .released → exec (.edge ch lvl) s = .next s) ∧
  (∀ (ch : Chan) (s t : State) (later : Time), (s.chan ch).state = .released → exec (.edge ch .low) s = .next t →
    exec (.edge ch .low) { t with now := later } = .next { t with now := later } ∧ (t.chan ch).t = s.now)

/-! ## The debounce step, seen through TICK (41_debounce.md) -/

/-- R143: at exactly the boundary a channel still pressed becomes `Pressed` and the tick emits exactly one press of it;
the next tick, at any time and with any levels, emits no other. -/
def Obligations.BoundaryTickConfirmsExactlyOnce : Prop :=
  ∀ (s : State) (c : Chan) (lv : Chan → Level), (s.chan c).state = .debouncing →
    elapsed s.cfg.timeBits s.now (s.chan c).t = s.cfg.debounceMs → lv c = .low →
    ∃ t, exec (.tick (lv .A) (lv .B)) s = .next t ∧ (t.chan c).state = .pressed ∧
      (∃ evs, t.events = s.events ++ evs ∧ presses c evs = 1) ∧
      ∀ (later : Time) (lv' : Chan → Level), ∃ u, exec (.tick (lv' .A) (lv' .B)) { t with now := later } = .next u ∧
        ∃ evs, u.events = t.events ++ evs ∧ presses c evs = 0

/-- R147: a channel whose level reads released at a tick with its window closed returns to `Released` and makes no
press. -/
def Obligations.BounceIsRejected : Prop :=
  ∀ (s : State) (c : Chan) (lv : Chan → Level), (s.chan c).state = .debouncing →
    s.cfg.debounceMs ≤ elapsed s.cfg.timeBits s.now (s.chan c).t → lv c = .high →
    ∃ t, exec (.tick (lv .A) (lv .B)) s = .next t ∧ t.chan c = { state := .released, t := (s.chan c).t } ∧
      ∃ evs, t.events = s.events ++ evs ∧ presses c evs = 0

/-- 41_debounce.md, "While the window is open the level is not read" (R142, which the spec marks as derived): with the
window of `c` open, two ticks that differ in the level of `c` alone do the same, and `c` stays as it is. -/
def Obligations.OpenWindowIgnoresLevel : Prop :=
  ∀ (s : State) (c : Chan) (lv lv' : Chan → Level), (s.chan c).state = .debouncing →
    elapsed s.cfg.timeBits s.now (s.chan c).t < s.cfg.debounceMs → (∀ c', c' ≠ c → lv' c' = lv c') →
    exec (.tick (lv' .A) (lv' .B)) s = exec (.tick (lv .A) (lv .B)) s ∧
    ∃ t, exec (.tick (lv .A) (lv .B)) s = .next t ∧ t.chan c = s.chan c

/-- 41_debounce.md, "The release is not debounced" and "The debounce step never moves a channel out of Released" (R144,
R145, which the spec marks as derived): at any time value, with no press of `c`. -/
def Obligations.TickOnReleasedOrPressedChannel : Prop :=
  ∀ (s : State) (c : Chan) (lv : Chan → Level), (s.chan c).state ≠ .debouncing →
    ∃ t, exec (.tick (lv .A) (lv .B)) s = .next t ∧
      t.chan c =
        { state := if (s.chan c).state = .pressed ∧ lv c = .low then .pressed else .released, t := (s.chan c).t } ∧
      ∃ evs, t.events = s.events ++ evs ∧ presses c evs = 0

/-- 41_debounce.md, "The debounce step of channel c reads and writes only chan[c].state and reads chan[c].t" (R151, which
the spec marks as derived): what a tick makes of a channel depends on that channel, its level, `now` and the
configuration alone. -/
def Obligations.TickTreatsChannelsIndependently : Prop :=
  ∀ (s₁ s₂ t₁ t₂ : State) (c : Chan) (lv₁ lv₂ : Chan → Level), s₁.cfg = s₂.cfg → s₁.now = s₂.now →
    s₁.chan c = s₂.chan c → lv₁ c = lv₂ c → exec (.tick (lv₁ .A) (lv₁ .B)) s₁ = .next t₁ →
    exec (.tick (lv₂ .A) (lv₂ .B)) s₂ = .next t₂ → t₁.chan c = t₂.chan c ∧ (t₁.chan c).t = (s₁.chan c).t

/-- R146: in every run, from every state, the presses of a channel are at most its entries into `Debouncing` (counting
the one it starts in, and one more entry than presses where it ends in `Debouncing`). -/
def Obligations.PressesAreBoundedByEntries : Prop :=
  ∀ (c : Chan) (k : Nat) (s t : State), Host.Core.run Sys2Proof.core k s = .next t →
    ∃ evs, t.events = s.events ++ evs ∧
      presses c evs + (if (t.chan c).state = .debouncing then 1 else 0) ≤
        entries c k s + (if (s.chan c).state = .debouncing then 1 else 0)

/-- 41_debounce.md "only EDGE does" and 70_reset_and_hazards.md "A button held low while reset is applied produces no
press" (R145, R344, which the spec marks as derived): with no press edge of `c` among the inputs, a run from a state in
which `c` is not `Debouncing` shows no press of `c`, whatever levels the ticks sample and whatever resets come. -/
def Obligations.NoPressWithoutPressEdge : Prop :=
  ∀ (c : Chan) (k : Nat) (s t : State), (s.chan c).state ≠ .debouncing →
    (∀ x ∈ s.inputs, isPressEdge c x = false) → Host.Core.run Sys2Proof.core k s = .next t →
    (t.chan c).state ≠ .debouncing ∧ ∃ evs, t.events = s.events ++ evs ∧ presses c evs = 0

/-! ## The digit (42_digit_counter.md) -/

/-- R170, R171, R172: what COUNT does, INC for A and DEC for B, the press event with the new digit and then its frame. -/
def Obligations.CountChangesDigitAndShowsIt : Prop :=
  ∀ (c : Chan) (s : State), ∃ d : Digit,
    d.val = (match c with
      | .A => (s.digit.val + 1) % 10
      | .B => (s.digit.val + 9) % 10) ∧
    count c s =
      { s with
        digit := d
        fb := render s.cfg d
        events := s.events ++ [.press c d, .frame (render s.cfg d)] }

/-- R173: a step changes the digit only by a reset, to 0, or by a tick that confirms a press. -/
def Obligations.DigitChangesOnlyOnConfirmedPress : Prop :=
  ∀ s t : State, step s = .next t → t.digit ≠ s.digit →
    (NextIsReset s ∧ t.digit = 0) ∨
    ∃ w n rest lvlA lvlB, s.inputs = .cmd w n :: rest ∧ decode w = .legal (.tick lvlA lvlB) ∧
      (confirms (accept (.cmd w n) rest s) .A lvlA = true ∨ confirms (accept (.cmd w n) rest s) .B lvlB = true)

/-- 42_digit_counter.md, "Counting laws" (R174, in part derived in the spec): over any run without a reset, the digit is
the one before plus the presses of A plus nine times the presses of B, modulo 10. From digit 0 these are the three laws
of the spec. -/
def Obligations.DigitCountsPresses : Prop :=
  ∀ (k : Nat) (s t : State), (∀ x ∈ s.inputs, isReset x = false) → Host.Core.run Sys2Proof.core k s = .next t →
    ∃ evs, t.events = s.events ++ evs ∧
      t.digit.val = (s.digit.val + presses .A evs + 9 * presses .B evs) % 10

/-- 42_digit_counter.md, "When A and B are both confirmed in one tick" (R175, R176, which the spec marks as derived). -/
def Obligations.BothConfirmedInOneTick : Prop :=
  ∀ (lv : Chan → Level) (s : State), confirms s .A (lv .A) = true → confirms s .B (lv .B) = true →
    ∃ t d, exec (.tick (lv .A) (lv .B)) s = .next t ∧ d.val = (s.digit.val + 1) % 10 ∧ d ≠ s.digit ∧
      t.digit = s.digit ∧ t.fb = render s.cfg s.digit ∧
      ∃ blinkEvs, t.events = s.events ++
        [.press .A d, .frame (render s.cfg d), .press .B s.digit, .frame (render s.cfg s.digit)] ++ blinkEvs ∧
        presses .A blinkEvs = 0 ∧ presses .B blinkEvs = 0 ∧ blinkEvs.countP isFrame = 0

/-! ## The renderer (43_renderer.md) -/

/-- R190, R196: RENDER completes in every state; it writes the whole frame buffer with the rendering of the digit, emits
that one frame, and changes nothing else. -/
def Obligations.RenderShowsDigit : Prop :=
  ∀ s : State, exec .render s =
    .next { s with fb := render s.cfg s.digit, events := s.events ++ [.frame (render s.cfg s.digit)] }

/-- R191: each pixel of `render(d)` shows the logical cell that the map sends to it: `FGWORD` where it is set, 0 where it
is not. -/
def Obligations.RenderPlacesCellsThroughMap : Prop :=
  ∀ (c : Config) (d : Digit) (i : Index), ∃ h : physIndex c i < 25,
    (render c d)[physIndex c i] = (if patternCell c d i then pix c.channelOrder c.fgColor else 0x000000#24) ∧
    ∀ p : Index, (render c d)[p] = (if patternCell c d (mapInv c p) then pix c.channelOrder c.fgColor else 0x000000#24)

/-- 43_renderer.md, "Scatter form" (R192, which the spec marks as derived). -/
def Obligations.RenderEqualsScatterForm : Prop :=
  ∀ (c : Config) (d : Digit), render c d = renderScatter c d

/-- 43_renderer.md, "Lit count" (R198; its case `FGWORD = 0` is marked as derived): as many lit pixels as set cells,
every other pixel exactly 0; with `FGWORD = 0` every pixel 0. -/
def Obligations.LitCountMatchesPattern : Prop :=
  ∀ (c : Config) (d : Digit),
    (fgWord c ≠ 0x000000#24 → litCount (render c d) = setBits c d) ∧
    (fgWord c = 0x000000#24 → litCount (render c d) = 0) ∧
    ∀ p : Index, patternCell c d (mapInv c p) = false → (render c d)[p] = 0x000000#24

/-- 43_renderer.md, "The map is a pluggable parameter" (R200, which the spec marks as derived): another map changes which
pixels of a frame are lit, never how many, and nothing else that any command does. -/
def Obligations.MapOnlyMovesPixels : Prop :=
  ∀ (s : State) (c : Config), c.toRawConfig = { s.cfg.toRawConfig with physMap := c.physMap } →
    (∀ d : Digit, litCount (render c d) = litCount (render s.cfg d)) ∧
    ∀ (i : Instr) (t₁ t₂ : State), exec i s = .next t₁ → exec i { s with cfg := c } = .next t₂ →
      t₂ = { t₁ with cfg := c, fb := t₂.fb, events := t₂.events } ∧ t₂.events.map blankFrame = t₁.events.map blankFrame

/-! ## The blink (44_blink.md) -/

/-- R230: the blink step of a tick. -/
def Obligations.BlinkStepTogglesWhenDue : Prop :=
  ∀ s : State, blinkStep s =
    if s.blink.active = true ∧ s.cfg.blinkMs ≤ elapsed s.cfg.timeBits s.now s.blink.t then
      { s with
        blink := { active := s.blink.active, phase := !s.blink.phase, t := s.now }
        indicator := if s.blink.phase = false then s.cfg.blinkColor else 0b000#3
        events := s.events ++ [.indicator (if s.blink.phase = false then s.cfg.blinkColor else 0b000#3)] }
    else s

/-- R232: BLINKEN completes in every state, writes `blink.active`, and changes nothing else. -/
def Obligations.BlinkenWritesActiveOnly : Prop :=
  ∀ (en : Bool) (s : State), exec (.blinken en) s = .next { s with blink := { s.blink with active := en } }

/-- R233: the blink does not depend on the digit, the buttons or the frame; and beside a reset only a tick that is due
changes the phase, the stamp or the indicator. -/
def Obligations.BlinkIsIndependentOfButtons : Prop :=
  (∀ (s₁ s₂ t₁ t₂ : State) (lv₁ lv₂ : Chan → Level), s₁.cfg = s₂.cfg → s₁.now = s₂.now → s₁.blink = s₂.blink →
    s₁.indicator = s₂.indicator → exec (.tick (lv₁ .A) (lv₁ .B)) s₁ = .next t₁ →
    exec (.tick (lv₂ .A) (lv₂ .B)) s₂ = .next t₂ → t₁.blink = t₂.blink ∧ t₁.indicator = t₂.indicator) ∧
  (∀ s t : State, step s = .next t →
    (t.blink.phase ≠ s.blink.phase ∨ t.blink.t ≠ s.blink.t ∨ t.indicator ≠ s.indicator) →
    NextIsReset s ∨
    ∃ w n rest lvlA lvlB, s.inputs = .cmd w n :: rest ∧ decode w = .legal (.tick lvlA lvlB) ∧
      toggles (accept (.cmd w n) rest s) = true)

/-- 44_blink.md, "Toggle spacing" (R234, which the spec marks as derived), with the host contract's bound that the stamp
is compared before `2 ^ TIME_BITS` ms have passed: with ticks exactly every `P` ms after a stamp taken at a tick, the
blink holds through `⌈B / P⌉ - 1` ticks and toggles at tick `⌈B / P⌉`, whatever the levels sampled; the spacing lies in
`[B, B + P)`. -/
def Obligations.BlinkTogglesAtCeilingOfPeriod : Prop :=
  ∀ (s : State) (t0 P n : Nat) (lv : Nat → Chan → Level) (rest : List Input), 1 ≤ P → 1 ≤ s.cfg.blinkMs →
    n = (s.cfg.blinkMs + P - 1) / P → n * P < 2 ^ s.cfg.timeBits → s.blink.active = true →
    s.blink.t = timeValue s.cfg.timeBits t0 → s.inputs = tickStream t0 P n lv ++ rest →
    (∀ j, j < n → ∃ t, Host.Core.run Sys2Proof.core j s = .next t ∧ t.blink = s.blink ∧ t.indicator = s.indicator) ∧
    (∃ t, Host.Core.run Sys2Proof.core n s = .next t ∧
      t.blink = { active := true, phase := !s.blink.phase, t := timeValue s.cfg.timeBits (t0 + n * P) } ∧
      t.indicator = drive s.cfg (!s.blink.phase)) ∧
    s.cfg.blinkMs ≤ n * P ∧ n * P < s.cfg.blinkMs + P

/-- 44_blink.md, "Suspension and resumption" (R236, which the spec marks as derived): through a run with the blink
suspended, no reset and no BLINKEN 1, the blink and the indicator hold; after BLINKEN 1 the first tick that is due
toggles. -/
def Obligations.SuspendedBlinkHolds : Prop :=
  (∀ (k : Nat) (s t : State), s.blink.active = false →
    (∀ x ∈ s.inputs, isReset x = false ∧ isBlinkOn x = false) → Host.Core.run Sys2Proof.core k s = .next t →
    t.blink = s.blink ∧ t.indicator = s.indicator) ∧
  (∀ (s t : State) (now : Time) (lv : Chan → Level), exec (.blinken true) s = .next t →
    s.cfg.blinkMs ≤ elapsed s.cfg.timeBits now s.blink.t →
    ∃ u, exec (.tick (lv .A) (lv .B)) { t with now := now } = .next u ∧
      u.blink = { active := true, phase := !s.blink.phase, t := now })

/-- 44_blink.md, "With BLINK_MS = 0" (R237, which the spec marks as derived). -/
def Obligations.ZeroPeriodTogglesEveryTick : Prop :=
  ∀ (s : State) (lv : Chan → Level), s.cfg.blinkMs = 0 → s.blink.active = true →
    ∃ t, exec (.tick (lv .A) (lv .B)) s = .next t ∧
      t.blink = { active := true, phase := !s.blink.phase, t := s.now } ∧ t.indicator = drive s.cfg (!s.blink.phase)

/-! ## TICK (45_control_loop.md) -/

/-- R260, R141: TICK completes in every state, and everything it leaves: A's table row, B's, the digit, the frame, the
blink, the ordered events, and what it does not touch. -/
def Obligations.TickResult : Prop :=
  ∀ (lv : Chan → Level) (s : State),
    ∃ (t : State) (d₁ d₂ : Digit) (v : Rgb3), exec (.tick (lv .A) (lv .B)) s = .next t ∧
      d₁.val = (if confirms s .A (lv .A) then (s.digit.val + 1) % 10 else s.digit.val) ∧
      d₂.val = (if confirms s .B (lv .B) then (d₁.val + 9) % 10 else d₁.val) ∧
      v = (if s.blink.phase = false then s.cfg.blinkColor else 0b000#3) ∧
      (∀ c, t.chan c =
        { state :=
            stateAfter (s.chan c).state (decide (s.cfg.debounceMs ≤ elapsed s.cfg.timeBits s.now (s.chan c).t))
              (decide (lv c = .low))
          t := (s.chan c).t }) ∧
      t.digit = d₂ ∧
      t.fb = (if confirms s .A (lv .A) ∨ confirms s .B (lv .B) then render s.cfg d₂ else s.fb) ∧
      t.blink = (if toggles s then { active := s.blink.active, phase := !s.blink.phase, t := s.now } else s.blink) ∧
      t.indicator = (if toggles s then v else s.indicator) ∧
      t.events = s.events ++
        (if confirms s .A (lv .A) then [.press .A d₁, .frame (render s.cfg d₁)] else []) ++
        (if confirms s .B (lv .B) then [.press .B d₂, .frame (render s.cfg d₂)] else []) ++
        (if toggles s then [.indicator v] else []) ∧
      t.cfg = s.cfg ∧ t.errIllegal = s.errIllegal ∧ t.now = s.now ∧ t.inputs = s.inputs

/-- 45_control_loop.md, "a TICK in which nothing is confirmed and the blink does not toggle emits nothing" (R268, which
the spec marks as derived). -/
def Obligations.QuietTickOnlyReleasesChannels : Prop :=
  ∀ (lv : Chan → Level) (s : State), confirms s .A (lv .A) = false → confirms s .B (lv .B) = false → toggles s = false →
    ∃ t, exec (.tick (lv .A) (lv .B)) s = .next t ∧ t = { s with chanA := t.chanA, chanB := t.chanB } ∧
      ∀ c, t.chan c = s.chan c ∨
        ((s.chan c).state ≠ .released ∧ t.chan c = { state := .released, t := (s.chan c).t })

/-- 70_reset_and_hazards.md, "Press latency" (R361, which the spec marks as derived), with the host contract's bound: a
press edge at reading `te`, the pin low at the tick at reading `k·P`; the tick confirms exactly when `k` is at least
`⌈(te + D) / P⌉`, and that tick comes within `P` ms of the end of the window. -/
def Obligations.PressLatency : Prop :=
  ∀ (s : State) (c : Chan) (lv : Chan → Level) (te k : Nat),
    s.chan c = { state := .debouncing, t := timeValue s.cfg.timeBits te } →
    s.now = timeValue s.cfg.timeBits (k * s.cfg.pollMs) → Fresh s.cfg.timeBits te (k * s.cfg.pollMs) → lv c = .low →
    (∃ t, exec (.tick (lv .A) (lv .B)) s = .next t ∧
      ((t.chan c).state = .pressed ↔ (te + s.cfg.debounceMs + s.cfg.pollMs - 1) / s.cfg.pollMs ≤ k)) ∧
    te + s.cfg.debounceMs ≤ (te + s.cfg.debounceMs + s.cfg.pollMs - 1) / s.cfg.pollMs * s.cfg.pollMs ∧
    (te + s.cfg.debounceMs + s.cfg.pollMs - 1) / s.cfg.pollMs * s.cfg.pollMs < te + s.cfg.debounceMs + s.cfg.pollMs

/-! ## The host's contract (45_control_loop.md R265) -/

/-- R265, as the model states it (log 18): the contract holds right after a reset, with no input yet, for every first
TICK due within `POLL_MS`; and while the host keeps it, every step leaves a state and a view of the host in which it holds of the inputs
that are left. -/
def Obligations.HostContractIsKeptByEveryStep : Prop :=
  (∀ (c : Config) (a b : Level) (n due : Nat), n ≤ due → due ≤ n + c.pollMs →
    HostContract (.atReset a b n due) (startState c (timeValue c.timeBits n))) ∧
  ∀ (h : HostView) (s t : State) (x : Input) (rest : List Input), HostContract h s → s.inputs = x :: rest →
    step s = .next t → HostContract (h.after x s t) t

/-- 70_reset_and_hazards.md, "a clean press held for at least DEBOUNCE_MS + POLL_MS ms is always counted" (R353, R361,
which the spec marks as derived): under the contract, a press edge into a `Released` channel, with no reset and no release
edge of it before an input `x` that comes `DEBOUNCE_MS + POLL_MS` ms later (one more with `DEBOUNCE_MS = 0`, where a
TICK may have come just before the edge, at the same reading), is counted exactly once before `x`. The level of a TICK
inside which a pin changes is the model's choice (log 19). -/
def Obligations.HeldPressIsCountedOnce : Prop :=
  ∀ (h : HostView) (s : State) (c : Chan) (w : Word) (te : Nat) (held more : List Input) (x : Input),
    HostContract h s → s.inputs = .cmd w te :: held ++ x :: more → decode w = .legal (.edge c .low) →
    (s.chan c).state = .released → (∀ y ∈ held, isReset y = false ∧ isReleaseEdge c y = false) →
    te + max 1 s.cfg.debounceMs + s.cfg.pollMs ≤ inputReading x →
    ∃ t evs, Host.Core.run Sys2Proof.core (held.length + 1) s = .next t ∧ t.events = s.events ++ evs ∧
      presses c evs = 1 ∧ (t.chan c).state = .pressed

/-- 44_blink.md, "at the configured period ±1 poll tick, indefinitely, independent of button activity" (R230, R234, which
the spec marks as derived), with only the ticks of the host's contract as a premise (R265 (4)) and nothing said of any
stamp: on an endless stream with no reset and no BLINKEN 0, an active blink never stops; after every input there is a
later one by which the phase is another, with at most `⌈BLINK_MS / POLL_MS⌉ + 1` TICKs between. The bound on the two
intervals leaves room for a TICK before the elapsed time wraps (70_reset_and_hazards.md R354). -/
def Obligations.ActiveBlinkTogglesForever : Prop :=
  ∀ (h : HostView) (s : State) (xs : Nat → Input), TicksForever h s xs →
    s.cfg.blinkMs + s.cfg.pollMs ≤ 2 ^ s.cfg.timeBits → s.blink.active = true →
    (∀ m, isReset (xs m) = false ∧ isBlinkOff (xs m) = false) →
    ∀ k, ∃ m, k < m ∧
      ((firstInputs xs m).drop k).countP isTick ≤ (s.cfg.blinkMs + s.cfg.pollMs - 1) / s.cfg.pollMs + 1 ∧
      ∃ t₁ t₂ : State,
        Host.Core.run Sys2Proof.core k { s with inputs := firstInputs xs m } = .next t₁ ∧
        Host.Core.run Sys2Proof.core m { s with inputs := firstInputs xs m } = .next t₂ ∧
        t₂.blink.phase ≠ t₁.blink.phase

/-! ## The step function and errors (45_control_loop.md, 60_exceptions.md) -/

/-- A step runs the decoded command: `now` becomes the input's time value, the input leaves the stream, and the step is
`exec` of the command there (45_control_loop.md section "The step function"; the stream, `now` in State and the
narrowing of the reading are the model's, logs 5, 8 and 1). -/
def Obligations.StepRunsDecodedCommand : Prop :=
  ∀ (s : State) (w : Word) (n : Nat) (rest : List Input) (i : Instr), s.inputs = .cmd w n :: rest →
    decode w = .legal i → step s = exec i { s with now := timeValue s.cfg.timeBits n, inputs := rest }

/-- 60_exceptions.md section 1 (R300) and 45_control_loop.md section "The step function" (R262): a word that decodes to
Illegal sets the flag; nothing else of the block changes and no event is emitted. That the step also sets `now` to the
input's narrowed time value and takes the input from the stream is the model's form of the input's arrival (logs 1, 5 and
8). -/
def Obligations.IllegalWordSetsOnlyTheFlag : Prop :=
  ∀ (s : State) (w : Word) (n : Nat) (rest : List Input) (why : IllegalWord), s.inputs = .cmd w n :: rest →
    decode w = .illegal why →
    step s = .next { s with errIllegal := true, now := timeValue s.cfg.timeBits n, inputs := rest }

/-- 60_exceptions.md R318: with no input waiting the block keeps all state. That a step without an input exists is the
model's choice (log 6). -/
def Obligations.IdleStepKeepsState : Prop :=
  ∀ s : State, s.inputs = [] → step s = .next s

/-- 60_exceptions.md section 1 (R301) and 45_control_loop.md section "The step function" (R262): every command completes
in every state; and a run of any length, on any inputs, resets and Illegal words among them, never faults and is never
refused. That a run goes on where no input waits is the model's choice (log 6). -/
def Obligations.EveryRunGoesOn : Prop :=
  (∀ (i : Instr) (s : State), ∃ t, exec i s = .next t) ∧
  ∀ (k : Nat) (s : State), ∃ t, Host.Core.run Sys2Proof.core k s = .next t

/-- 60_exceptions.md, "err_illegal is never cleared by a command" (R302, which the spec marks as derived): once set, the
flag stays through every run without a reset. -/
def Obligations.ErrorFlagIsSticky : Prop :=
  ∀ (k : Nat) (s t : State), s.errIllegal = true → (∀ x ∈ s.inputs, isReset x = false) →
    Host.Core.run Sys2Proof.core k s = .next t → t.errIllegal = true

/-- 60_exceptions.md, "the commands after it behave as if it had not arrived" (R302, which the spec marks as derived): no
command reads or writes the flag. -/
def Obligations.CommandsIgnoreErrorFlag : Prop :=
  ∀ (i : Instr) (s t : State) (b : Bool), exec i s = .next t →
    exec i { s with errIllegal := b } = .next { t with errIllegal := b } ∧ t.errIllegal = s.errIllegal

/-- 45_control_loop.md, "At most five events" and 70_reset_and_hazards.md, "does not withdraw events": a step appends at
most five events. The event log in State is the model's choice (log 7). -/
def Obligations.StepAppendsAtMostFiveEvents : Prop :=
  ∀ s t : State, step s = .next t → ∃ evs, t.events = s.events ++ evs ∧ evs.length ≤ 5
end

