-- ==== Sys2Proof/Laws/State.lean ====
section
/-! SUPPORT. One lemma per field per update of the state, each true by unfolding the update. -/

namespace Sys2Proof.Machine

/-! `setChan` -/

@[simp] theorem setChan_cfg (s : State) (c : Chan) (v : ButtonChannel) : (s.setChan c v).cfg = s.cfg := by cases c <;> rfl
@[simp] theorem setChan_digit (s : State) (c : Chan) (v : ButtonChannel) : (s.setChan c v).digit = s.digit := by cases c <;> rfl
@[simp] theorem setChan_blink (s : State) (c : Chan) (v : ButtonChannel) : (s.setChan c v).blink = s.blink := by cases c <;> rfl
@[simp] theorem setChan_indicator (s : State) (c : Chan) (v : ButtonChannel) : (s.setChan c v).indicator = s.indicator := by cases c <;> rfl
@[simp] theorem setChan_fb (s : State) (c : Chan) (v : ButtonChannel) : (s.setChan c v).fb = s.fb := by cases c <;> rfl
@[simp] theorem setChan_errIllegal (s : State) (c : Chan) (v : ButtonChannel) : (s.setChan c v).errIllegal = s.errIllegal := by cases c <;> rfl
@[simp] theorem setChan_now (s : State) (c : Chan) (v : ButtonChannel) : (s.setChan c v).now = s.now := by cases c <;> rfl
@[simp] theorem setChan_inputs (s : State) (c : Chan) (v : ButtonChannel) : (s.setChan c v).inputs = s.inputs := by cases c <;> rfl
@[simp] theorem setChan_events (s : State) (c : Chan) (v : ButtonChannel) : (s.setChan c v).events = s.events := by cases c <;> rfl
@[simp] theorem setChan_chan_self (s : State) (c : Chan) (v : ButtonChannel) : (s.setChan c v).chan c = v := by cases c <;> rfl
theorem setChan_chan_other (s : State) {c c' : Chan} (v : ButtonChannel) (h : c' ≠ c) : (s.setChan c v).chan c' = s.chan c' := by
  cases c <;> cases c' <;> first | rfl | exact absurd rfl h
@[simp] theorem setChan_chan_self_eq (s : State) (c : Chan) : s.setChan c (s.chan c) = s := by cases c <;> rfl
@[simp] theorem chan_A (s : State) : s.chan .A = s.chanA := rfl
@[simp] theorem chan_B (s : State) : s.chan .B = s.chanB := rfl

/-! `setChanState` -/

@[simp] theorem setChanState_cfg (s : State) (c : Chan) (v : BtnState) : (s.setChanState c v).cfg = s.cfg := setChan_cfg ..
@[simp] theorem setChanState_digit (s : State) (c : Chan) (v : BtnState) : (s.setChanState c v).digit = s.digit := setChan_digit ..
@[simp] theorem setChanState_blink (s : State) (c : Chan) (v : BtnState) : (s.setChanState c v).blink = s.blink := setChan_blink ..
@[simp] theorem setChanState_indicator (s : State) (c : Chan) (v : BtnState) : (s.setChanState c v).indicator = s.indicator := setChan_indicator ..
@[simp] theorem setChanState_fb (s : State) (c : Chan) (v : BtnState) : (s.setChanState c v).fb = s.fb := setChan_fb ..
@[simp] theorem setChanState_errIllegal (s : State) (c : Chan) (v : BtnState) : (s.setChanState c v).errIllegal = s.errIllegal := setChan_errIllegal ..
@[simp] theorem setChanState_now (s : State) (c : Chan) (v : BtnState) : (s.setChanState c v).now = s.now := setChan_now ..
@[simp] theorem setChanState_inputs (s : State) (c : Chan) (v : BtnState) : (s.setChanState c v).inputs = s.inputs := setChan_inputs ..
@[simp] theorem setChanState_events (s : State) (c : Chan) (v : BtnState) : (s.setChanState c v).events = s.events := setChan_events ..
@[simp] theorem setChanState_chan_self (s : State) (c : Chan) (v : BtnState) : (s.setChanState c v).chan c = { state := v, t := (s.chan c).t } :=
  setChan_chan_self ..
theorem setChanState_chan_other (s : State) {c c' : Chan} (v : BtnState) (h : c' ≠ c) : (s.setChanState c v).chan c' = s.chan c' :=
  setChan_chan_other _ _ h
theorem setChanState_self_eq (s : State) (c : Chan) (v : BtnState) (h : (s.chan c).state = v) : s.setChanState c v = s := by
  subst h; cases c <;> rfl

/-! `emit` -/

@[simp] theorem emit_cfg (e : Event) (s : State) : (emit e s).cfg = s.cfg := rfl
@[simp] theorem emit_chan (e : Event) (s : State) (c : Chan) : (emit e s).chan c = s.chan c := by cases c <;> rfl
@[simp] theorem emit_chanA (e : Event) (s : State) : (emit e s).chanA = s.chanA := rfl
@[simp] theorem emit_chanB (e : Event) (s : State) : (emit e s).chanB = s.chanB := rfl
@[simp] theorem emit_digit (e : Event) (s : State) : (emit e s).digit = s.digit := rfl
@[simp] theorem emit_blink (e : Event) (s : State) : (emit e s).blink = s.blink := rfl
@[simp] theorem emit_indicator (e : Event) (s : State) : (emit e s).indicator = s.indicator := rfl
@[simp] theorem emit_fb (e : Event) (s : State) : (emit e s).fb = s.fb := rfl
@[simp] theorem emit_errIllegal (e : Event) (s : State) : (emit e s).errIllegal = s.errIllegal := rfl
@[simp] theorem emit_now (e : Event) (s : State) : (emit e s).now = s.now := rfl
@[simp] theorem emit_inputs (e : Event) (s : State) : (emit e s).inputs = s.inputs := rfl
@[simp] theorem emit_events (e : Event) (s : State) : (emit e s).events = s.events ++ [e] := rfl

/-! `accept` -/

@[simp] theorem accept_cfg (x : Input) (rest : List Input) (s : State) : (accept x rest s).cfg = s.cfg := rfl
@[simp] theorem accept_chan (x : Input) (rest : List Input) (s : State) (c : Chan) : (accept x rest s).chan c = s.chan c := by cases c <;> rfl
@[simp] theorem accept_chanA (x : Input) (rest : List Input) (s : State) : (accept x rest s).chanA = s.chanA := rfl
@[simp] theorem accept_chanB (x : Input) (rest : List Input) (s : State) : (accept x rest s).chanB = s.chanB := rfl
@[simp] theorem accept_digit (x : Input) (rest : List Input) (s : State) : (accept x rest s).digit = s.digit := rfl
@[simp] theorem accept_blink (x : Input) (rest : List Input) (s : State) : (accept x rest s).blink = s.blink := rfl
@[simp] theorem accept_indicator (x : Input) (rest : List Input) (s : State) : (accept x rest s).indicator = s.indicator := rfl
@[simp] theorem accept_fb (x : Input) (rest : List Input) (s : State) : (accept x rest s).fb = s.fb := rfl
@[simp] theorem accept_errIllegal (x : Input) (rest : List Input) (s : State) : (accept x rest s).errIllegal = s.errIllegal := rfl
@[simp] theorem accept_now (x : Input) (rest : List Input) (s : State) :
    (accept x rest s).now = timeValue s.cfg.timeBits (inputReading x) := rfl
@[simp] theorem accept_inputs (x : Input) (rest : List Input) (s : State) : (accept x rest s).inputs = rest := rfl
@[simp] theorem accept_events (x : Input) (rest : List Input) (s : State) : (accept x rest s).events = s.events := rfl

/-! `illegal` -/

@[simp] theorem illegal_cfg (s : State) : (illegal s).cfg = s.cfg := rfl
@[simp] theorem illegal_chan (s : State) (c : Chan) : (illegal s).chan c = s.chan c := by cases c <;> rfl
@[simp] theorem illegal_chanA (s : State) : (illegal s).chanA = s.chanA := rfl
@[simp] theorem illegal_chanB (s : State) : (illegal s).chanB = s.chanB := rfl
@[simp] theorem illegal_digit (s : State) : (illegal s).digit = s.digit := rfl
@[simp] theorem illegal_blink (s : State) : (illegal s).blink = s.blink := rfl
@[simp] theorem illegal_indicator (s : State) : (illegal s).indicator = s.indicator := rfl
@[simp] theorem illegal_fb (s : State) : (illegal s).fb = s.fb := rfl
@[simp] theorem illegal_errIllegal (s : State) : (illegal s).errIllegal = true := rfl
@[simp] theorem illegal_now (s : State) : (illegal s).now = s.now := rfl
@[simp] theorem illegal_inputs (s : State) : (illegal s).inputs = s.inputs := rfl
@[simp] theorem illegal_events (s : State) : (illegal s).events = s.events := rfl

/-! `applyReset` -/

@[simp] theorem applyReset_cfg (n : Time) (s : State) : (applyReset n s).cfg = s.cfg := rfl
@[simp] theorem applyReset_chan (n : Time) (s : State) (c : Chan) : (applyReset n s).chan c = { state := .released, t := n } := by cases c <;> rfl
@[simp] theorem applyReset_chanA (n : Time) (s : State) : (applyReset n s).chanA = { state := .released, t := n } := rfl
@[simp] theorem applyReset_chanB (n : Time) (s : State) : (applyReset n s).chanB = { state := .released, t := n } := rfl
@[simp] theorem applyReset_digit (n : Time) (s : State) : (applyReset n s).digit = 0 := rfl
@[simp] theorem applyReset_blink (n : Time) (s : State) : (applyReset n s).blink = { active := true, phase := false, t := n } := rfl
@[simp] theorem applyReset_indicator (n : Time) (s : State) : (applyReset n s).indicator = 0b000#3 := rfl
@[simp] theorem applyReset_fb (n : Time) (s : State) : (applyReset n s).fb = darkFrame := rfl
@[simp] theorem applyReset_errIllegal (n : Time) (s : State) : (applyReset n s).errIllegal = false := rfl
@[simp] theorem applyReset_now (n : Time) (s : State) : (applyReset n s).now = s.now := rfl
@[simp] theorem applyReset_inputs (n : Time) (s : State) : (applyReset n s).inputs = s.inputs := rfl
@[simp] theorem applyReset_events (n : Time) (s : State) : (applyReset n s).events = s.events := rfl

/-! `showDigit` -/

@[simp] theorem showDigit_cfg (s : State) : (showDigit s).cfg = s.cfg := by rw [showDigit, emit]
@[simp] theorem showDigit_chanA (s : State) : (showDigit s).chanA = s.chanA := by rw [showDigit, emit]
@[simp] theorem showDigit_chanB (s : State) : (showDigit s).chanB = s.chanB := by rw [showDigit, emit]
@[simp] theorem showDigit_digit (s : State) : (showDigit s).digit = s.digit := by rw [showDigit, emit]
@[simp] theorem showDigit_blink (s : State) : (showDigit s).blink = s.blink := by rw [showDigit, emit]
@[simp] theorem showDigit_indicator (s : State) : (showDigit s).indicator = s.indicator := by rw [showDigit, emit]
@[simp] theorem showDigit_fb (s : State) : (showDigit s).fb = render s.cfg s.digit := by rw [showDigit, emit]
@[simp] theorem showDigit_errIllegal (s : State) : (showDigit s).errIllegal = s.errIllegal := by rw [showDigit, emit]
@[simp] theorem showDigit_now (s : State) : (showDigit s).now = s.now := by rw [showDigit, emit]
@[simp] theorem showDigit_inputs (s : State) : (showDigit s).inputs = s.inputs := by rw [showDigit, emit]
@[simp] theorem showDigit_events (s : State) : (showDigit s).events = s.events ++ [.frame (render s.cfg s.digit)] := by rw [showDigit, emit]
@[simp] theorem showDigit_chan (s : State) (c : Chan) : (showDigit s).chan c = s.chan c := by cases c <;> simp [State.chan]

/-! `count` -/

@[simp] theorem count_cfg (c : Chan) (s : State) : (count c s).cfg = s.cfg := by simp [count]
@[simp] theorem count_chanA (c : Chan) (s : State) : (count c s).chanA = s.chanA := by simp [count]
@[simp] theorem count_chanB (c : Chan) (s : State) : (count c s).chanB = s.chanB := by simp [count]
@[simp] theorem count_digit (c : Chan) (s : State) : (count c s).digit = countDigit c s.digit := by simp [count]
@[simp] theorem count_blink (c : Chan) (s : State) : (count c s).blink = s.blink := by simp [count]
@[simp] theorem count_indicator (c : Chan) (s : State) : (count c s).indicator = s.indicator := by simp [count]
@[simp] theorem count_fb (c : Chan) (s : State) : (count c s).fb = render s.cfg (countDigit c s.digit) := by simp [count]
@[simp] theorem count_errIllegal (c : Chan) (s : State) : (count c s).errIllegal = s.errIllegal := by simp [count]
@[simp] theorem count_now (c : Chan) (s : State) : (count c s).now = s.now := by simp [count]
@[simp] theorem count_inputs (c : Chan) (s : State) : (count c s).inputs = s.inputs := by simp [count]
@[simp] theorem count_events (c : Chan) (s : State) : (count c s).events =
    s.events ++ [.press c (countDigit c s.digit), .frame (render s.cfg (countDigit c s.digit))] := by simp [count]
@[simp] theorem count_chan (c c' : Chan) (s : State) : (count c s).chan c' = s.chan c' := by cases c' <;> simp [State.chan]

/-! `toggle` -/

@[simp] theorem toggle_cfg (s : State) : (toggle s).cfg = s.cfg := by rw [toggle, emit]
@[simp] theorem toggle_chanA (s : State) : (toggle s).chanA = s.chanA := by rw [toggle, emit]
@[simp] theorem toggle_chanB (s : State) : (toggle s).chanB = s.chanB := by rw [toggle, emit]
@[simp] theorem toggle_digit (s : State) : (toggle s).digit = s.digit := by rw [toggle, emit]
@[simp] theorem toggle_blink (s : State) : (toggle s).blink = { active := s.blink.active, phase := !s.blink.phase, t := s.now } := by rw [toggle, emit]
@[simp] theorem toggle_indicator (s : State) : (toggle s).indicator = drive s.cfg (!s.blink.phase) := by rw [toggle, emit]
@[simp] theorem toggle_fb (s : State) : (toggle s).fb = s.fb := by rw [toggle, emit]
@[simp] theorem toggle_errIllegal (s : State) : (toggle s).errIllegal = s.errIllegal := by rw [toggle, emit]
@[simp] theorem toggle_now (s : State) : (toggle s).now = s.now := by rw [toggle, emit]
@[simp] theorem toggle_inputs (s : State) : (toggle s).inputs = s.inputs := by rw [toggle, emit]
@[simp] theorem toggle_events (s : State) : (toggle s).events = s.events ++ [.indicator (drive s.cfg (!s.blink.phase))] := by rw [toggle, emit]
@[simp] theorem toggle_chan (s : State) (c : Chan) : (toggle s).chan c = s.chan c := by cases c <;> simp [State.chan]

/-! `deliver` -/

@[simp] theorem deliver_inputs (w : Word) (s : State) : (deliver w s).inputs = .cmd w s.now :: s.inputs := rfl
@[simp] theorem deliver_cfg (w : Word) (s : State) : (deliver w s).cfg = s.cfg := rfl
@[simp] theorem deliver_now (w : Word) (s : State) : (deliver w s).now = s.now := rfl

end Sys2Proof.Machine
end

