-- ==== Sys2Proof/Laws/Ops.lean ====
section
/-! SUPPORT. For each shared operation, one lemma that says once everything it can do. -/

namespace Sys2Proof.Machine

/-- Fetching answers nothing exactly when no input waits. -/
theorem fetch_nil (s : State) (h : s.inputs = []) : fetch s = none := by simp [fetch, h]

/-- Fetching an input that waits. -/
theorem fetch_cons (s : State) (x : Input) (rest : List Input) (h : s.inputs = x :: rest) :
    fetch s = some (inputRequest x, accept x rest s) := by simp [fetch, h]

/-- What a step can do: stay idle, reset, run a command, or set the error flag. -/
theorem step_cases (s t : State) (h : step s = .next t) :
    (s.inputs = [] ∧ t = s) ∨
    (∃ n rest, s.inputs = .reset n :: rest ∧
      t = applyReset (timeValue s.cfg.timeBits n) (accept (.reset n) rest s)) ∨
    (∃ w n rest i, s.inputs = .cmd w n :: rest ∧ decode w = .legal i ∧ exec i (accept (.cmd w n) rest s) = .next t) ∨
    (∃ w n rest why, s.inputs = .cmd w n :: rest ∧ decode w = .illegal why ∧
      t = illegal (accept (.cmd w n) rest s)) := by
  cases hin : s.inputs with
  | nil =>
    refine .inl ⟨rfl, ?_⟩
    simpa [step, fetch_nil s hin, idle] using h.symm
  | cons x rest =>
    rw [step, fetch_cons s x rest hin] at h
    cases x with
    | reset n => exact .inr (.inl ⟨n, rest, rfl, by simpa [applyRequest, inputRequest, inputReading] using h.symm⟩)
    | cmd w n =>
      cases hd : decode w with
      | legal i => exact .inr (.inr (.inl ⟨w, n, rest, i, rfl, hd, by simpa [applyRequest, inputRequest, hd] using h⟩))
      | illegal why =>
        exact .inr (.inr (.inr ⟨w, n, rest, why, rfl, hd, by simpa [applyRequest, inputRequest, hd] using h.symm⟩))

/-- EDGE: it starts the window, or changes nothing. -/
theorem execEdge_cases (ch : Chan) (lvl : Level) (s : State) :
    ((s.chan ch).state = .released ∧ lvl = .low ∧
      execEdge ch lvl s = .next (s.setChan ch { state := .debouncing, t := s.now })) ∨
    (¬((s.chan ch).state = .released ∧ lvl = .low) ∧ execEdge ch lvl s = .next s) := by
  by_cases h : (s.chan ch).state = .released ∧ lvl = .low
  · exact .inl ⟨h.1, h.2, by simp [execEdge, pressed, h.1, h.2]⟩
  · exact .inr ⟨h, by simp only [execEdge, pressed, decide_eq_true_eq, if_neg h]⟩

/-- When a tick confirms a press, as the rule's three conditions. -/
theorem confirms_iff (s : State) (c : Chan) (lvl : Level) :
    confirms s c lvl = true ↔
      (s.chan c).state = .debouncing ∧ s.cfg.debounceMs ≤ elapsed s.cfg.timeBits s.now (s.chan c).t ∧ lvl = .low :=
  decide_eq_true_iff

/-- When a tick toggles the blink, as the rule's two conditions. -/
theorem toggles_iff (s : State) :
    toggles s = true ↔ s.blink.active = true ∧ s.cfg.blinkMs ≤ elapsed s.cfg.timeBits s.now s.blink.t :=
  decide_eq_true_iff

/-- DEBOUNCE: the result and the channel's new state in the words of the table; the stamp stays. -/
theorem debounce_spec (c : Chan) (lvl : Level) (s : State) :
    debounce c lvl s =
      (confirms s c lvl,
        s.setChanState c (stateAfter (s.chan c).state (windowClosed c s) (pressed lvl))) := by
  obtain ⟨st, hst⟩ : ∃ st, (s.chan c).state = st := ⟨_, rfl⟩
  cases st
  · simp [debounce, hst, stateAfter, setChanState_self_eq, confirms]
  · by_cases hw : s.cfg.debounceMs ≤ elapsed s.cfg.timeBits s.now (s.chan c).t <;> cases lvl <;>
      simp [debounce, hst, stateAfter, setChanState_self_eq, confirms, windowClosed, State.elapsedSince, pressed, hw]
  · cases lvl <;> simp [debounce, hst, stateAfter, setChanState_self_eq, confirms, pressed]

/-- SHOW writes the frame buffer and emits one frame. -/
theorem showDigit_spec (s : State) :
    showDigit s = { s with fb := render s.cfg s.digit, events := s.events ++ [.frame (render s.cfg s.digit)] } := rfl

/-- COUNT: the digit, the press event, then the frame. -/
theorem count_spec (c : Chan) (s : State) :
    count c s =
      { s with
        digit := countDigit c s.digit
        fb := render s.cfg (countDigit c s.digit)
        events := s.events ++ [.press c (countDigit c s.digit), .frame (render s.cfg (countDigit c s.digit))] } := by
  simp [count, showDigit_spec, emit]

/-- The blink step: a toggle, or nothing. -/
theorem blinkStep_cases (s : State) :
    (toggles s = true ∧
      blinkStep s =
        { s with
          blink := { active := s.blink.active, phase := !s.blink.phase, t := s.now }
          indicator := drive s.cfg (!s.blink.phase)
          events := s.events ++ [.indicator (drive s.cfg (!s.blink.phase))] }) ∨
    (toggles s = false ∧ blinkStep s = s) := by
  have hdue : blinkDue s = toggles s := by
    rw [Bool.eq_iff_iff, toggles_iff, blinkDue, Bool.and_eq_true, decide_eq_true_iff]
    rfl
  cases h : toggles s
  · exact .inr ⟨rfl, by rw [blinkStep, hdue, h]; rfl⟩
  · exact .inl ⟨rfl, by rw [blinkStep, hdue, h]; rfl⟩

/-- One channel's part of a tick: its debounce step, with COUNT when it confirms. -/
theorem tickChannel_spec (c : Chan) (lvl : Level) (s : State) :
    tickChannel c lvl s =
      if confirms s c lvl then
        count c (s.setChanState c (stateAfter (s.chan c).state (windowClosed c s) (pressed lvl)))
      else s.setChanState c (stateAfter (s.chan c).state (windowClosed c s) (pressed lvl)) := by
  rw [tickChannel, debounce_spec]
  cases confirms s c lvl <;> rfl

/-- Every command ends in a next state. -/
theorem exec_is_next (i : Instr) (s : State) : ∃ t, exec i s = .next t := by
  cases i with
  | edge ch lvl =>
    rcases execEdge_cases ch lvl s with ⟨_, _, h⟩ | ⟨_, h⟩
    · exact ⟨_, h⟩
    · exact ⟨_, h⟩
  | tick _ _ => exact ⟨_, rfl⟩
  | blinken _ => exact ⟨_, rfl⟩
  | render => exact ⟨_, rfl⟩

/-- Elapsed time is below `2 ^ TIME_BITS`. -/
theorem elapsed_lt (w now t : Nat) : elapsed w now t < 2 ^ w := by
  have hpos : (0 : Int) < ((2 ^ w : Nat) : Int) := by exact_mod_cast Nat.two_pow_pos w
  have h0 := Int.emod_nonneg ((now : Int) - (t : Int)) hpos.ne'
  have h1 := Int.emod_lt_of_pos ((now : Int) - (t : Int)) hpos
  unfold elapsed
  omega

/-- A time value is below `2 ^ TIME_BITS`. -/
theorem timeValue_lt (w n : Nat) : timeValue w n < 2 ^ w := Nat.mod_lt _ (Nat.two_pow_pos w)

/-- A frame's pixel after rendering: lit where the cell that the map brings there is set. -/
theorem render_getElem (c : Config) (d : Digit) (p : Index) :
    (render c d)[p] = if patternCell c d (mapInv c p) then fgWord c else 0x000000#24 := by
  simp [render, multiplex, physCells]

/-- The entries of a configuration's map are indices. -/
theorem physIndex_lt (c : Config) (i : Index) : physIndex c i < 25 := by
  have h := c.wf
  simp only [RawConfig.wf, Bool.and_eq_true] at h
  have hr := h.1.2
  simp only [RawConfig.mapRangeOk, List.all_eq_true, decide_eq_true_eq] at hr
  exact hr _ (by simp [Vector.mem_toList_iff])

/-- The entries of a configuration's map are pairwise distinct. -/
theorem physIndex_injective (c : Config) : Function.Injective (physIndex c) := by
  intro i j hij
  have h := c.wf
  simp only [RawConfig.wf, Bool.and_eq_true] at h
  have hd := h.2
  simp only [RawConfig.mapDistinctOk, decide_eq_true_eq] at hd
  have hv : c.physMap[i] = c.physMap[j] := BitVec.eq_of_toNat_eq hij
  refine Fin.ext ((hd.getElem_inj_iff (hi := by simp) (hj := by simp)).mp ?_)
  simpa using hv

end Sys2Proof.Machine
end

