-- ==== Sys2Proof/Laws/Host.lean ====
section
/-! SUPPORT. The host's view of a run: one lemma per field of a view after an input, and what it is for the inputs that
wait to keep to a clause of the contract. -/

namespace Sys2Proof.Machine

@[simp] theorem inputInstr_reset (n : Nat) : inputInstr (.reset n) = none := rfl
theorem inputInstr_legal {w : Word} {i : Instr} (n : Nat) (h : decode w = .legal i) : inputInstr (.cmd w n) = some i := by
  simp [inputInstr, h]
theorem inputInstr_illegal {w : Word} {why : IllegalWord} (n : Nat) (h : decode w = .illegal why) :
    inputInstr (.cmd w n) = none := by simp [inputInstr, h]

/-- Which inputs are TICKs. -/
theorem isTick_iff (x : Input) : isTick x = true ↔ ∃ lvlA lvlB, inputInstr x = some (.tick lvlA lvlB) := by
  unfold isTick
  split <;> simp_all

@[simp] theorem after_reading (h : HostView) (x : Input) (s t : State) : (h.after x s t).reading = inputReading x := rfl
@[simp] theorem after_accepted (h : HostView) (x : Input) (s t : State) :
    (h.after x s t).accepted = h.accepted ++ framesOf (t.events.drop s.events.length) := rfl
@[simp] theorem after_tickDue (h : HostView) (x : Input) (s t : State) :
    (h.after x s t).tickDue = if isTick x then h.tickDue + s.cfg.pollMs else h.tickDue := rfl
@[simp] theorem after_stampBlink (h : HostView) (x : Input) (s t : State) :
    (h.after x s t).stampBlink =
      if isReset x || decide (s.blink.phase ≠ t.blink.phase) then inputReading x else h.stampBlink := rfl

/-- The stamp of a channel is taken anew by a reset and by an entry into `Debouncing`. -/
theorem after_stamp (h : HostView) (x : Input) (s t : State) (c : Chan) :
    (h.after x s t).stamp c =
      if isReset x || decide ((s.chan c).state ≠ .debouncing ∧ (t.chan c).state = .debouncing) then inputReading x
      else h.stamp c := by
  cases c <;> rfl

/-- The level of a pin is that of the last EDGE of it. -/
theorem after_pin (h : HostView) (x : Input) (s t : State) (c : Chan) :
    (h.after x s t).pin c =
      match inputInstr x with
      | some (.edge c' l) => if c' = c then l else h.pin c
      | some (.tick _ _) | some (.blinken _) | some .render | none => h.pin c := by
  cases c <;> simp only [HostView.pin, HostView.after] <;> split <;> simp_all

/-- No input waits: every clause is kept. -/
@[simp] theorem keeps_nil (allows : HostView → State → Input → Bool) (h : HostView) (s : State) :
    keeps allows [] h s = true := rfl

/-- The next input is one that the clause admits, and after its step the rest keep to it. -/
theorem keeps_cons (allows : HostView → State → Input → Bool) (h : HostView) (s t : State) (x : Input) (xs : List Input)
    (hi : s.inputs = x :: xs) (hs : step s = .next t) :
    keeps allows (x :: xs) h s = (allows h s x && keeps allows xs (h.after x s t) t) := by
  have : ({ s with inputs := x :: xs } : State) = s := by rw [← hi]
  rw [keeps, this, hs]

end Sys2Proof.Machine
end

