-- ==== Sys2Proof/Laws/PerInstr.lean ====
section
/-! SUPPORT. The statements made per instruction. -/

namespace Sys2Proof.Laws

/-- The word of an instruction has its reserved field 0 (30_encoding.md R91). -/
def ReservedZero.Statement (i : Instr) : Prop := rsvField (encode i) = 0#10

theorem ReservedZero.edge (ch : Chan) (lvl : Level) : ReservedZero.Statement (.edge ch lvl) := by
  cases ch <;> cases lvl <;> rfl

theorem ReservedZero.tick (lvlA lvlB : Level) : ReservedZero.Statement (.tick lvlA lvlB) := by
  cases lvlA <;> cases lvlB <;> rfl

theorem ReservedZero.blinken (en : Bool) : ReservedZero.Statement (.blinken en) := by
  cases en <;> rfl

theorem ReservedZero.render : ReservedZero.Statement .render := rfl

end Sys2Proof.Laws
end

