-- ==== Sys2Proof/Tests/Slice0.lean ====
section
/-! SUPPORT. Tests: the checks of WellFormed refuse ill-formed terms; words written out from the spec's encodings decode;
one step at a time, the vectors of 95_test_vectors.md under its fixture configuration FIX. Expected values are the
spec's tables, not the model's answers. -/

namespace Sys2Proof.Tests

open Sys2Proof.Machine

/-! ## The fixture FIX (95_test_vectors.md section 2) -/

/-- The fixture with a map of its own (FIX, FIX/SERP, FIX/ROT). -/
def fixRaw (map : Vector (BitVec 5) 25) : RawConfig where
  timeBits := 32
  debounceMs := Config.defaultDebounceMs
  blinkMs := Config.defaultBlinkMs
  pollMs := Config.defaultPollMs
  pattern := #v[0x0E8C62E#25, 0x0E210C4#25, 0x1F0BA0F#25, 0x0F83A0F#25, 0x0847D29#25, 0x0F83C3F#25, 0x0E8BC2E#25,
    0x042221F#25, 0x0E8BA2E#25, 0x0E87A2E#25]
  physMap := map
  channelOrder := .GRB
  fgColor := { r := 0x00#8, g := 0xFF#8, b := 0x00#8 }
  blinkColor := 0b100#3

theorem fixRaw_rowMajor_wf : (fixRaw rowMajor).wf = true := by decide
theorem fixRaw_serpFix_wf : (fixRaw serpFix).wf = true := by decide
theorem fixRaw_rotFix_wf : (fixRaw rotFix).wf = true := by decide

/-- FIX. -/
def fix : Config := ⟨fixRaw rowMajor, fixRaw_rowMajor_wf⟩
/-- FIX/SERP. -/
def fixSerp : Config := ⟨fixRaw serpFix, fixRaw_serpFix_wf⟩
/-- FIX/ROT. -/
def fixRot : Config := ⟨fixRaw rotFix, fixRaw_rotFix_wf⟩

/-- FIX with both intervals 0 (vectors D10, B7). -/
def fixZeroRaw : RawConfig := { fixRaw rowMajor with debounceMs := 0, blinkMs := 0 }
theorem fixZeroRaw_wf : fixZeroRaw.wf = true := by decide
def fixZero : Config := ⟨fixZeroRaw, fixZeroRaw_wf⟩

/-- FIX with FG_COLOR (0, 0, 0). -/
def fixDarkRaw : RawConfig := { fixRaw rowMajor with fgColor := { r := 0x00#8, g := 0x00#8, b := 0x00#8 } }
theorem fixDarkRaw_wf : fixDarkRaw.wf = true := by decide
def fixDark : Config := ⟨fixDarkRaw, fixDarkRaw_wf⟩

/-- The state right after RESET at 0 under FIX, with the time value of the next command. -/
def base (now : Time) : State := { startState fix 0 with now := now }

/-- The next state of an outcome, if it has one. -/
def nextOf : Host.Outcome State Fault Refusal → Option State
  | .next s => some s
  | .fault _ => none
  | .refused _ => none

theorem next_of_nextOf {o : Host.Outcome State Fault Refusal} {t : State} (h : nextOf o = some t) : o = .next t := by
  cases o with
  | next s => exact congrArg Host.Outcome.next (Option.some.inj h)
  | fault r => cases h
  | refused r => cases h

/-- An outcome whose next state passes a check, as a next state that passes it. -/
theorem next_with {o : Host.Outcome State Fault Refusal} (p : State → Bool) (h : (nextOf o).any p = true) :
    ∃ t, o = .next t ∧ p t = true := by
  cases ho : nextOf o with
  | none => rw [ho] at h; cases h
  | some t => rw [ho] at h; exact ⟨t, next_of_nextOf ho, h⟩

/-- The positions of a frame that are lit. -/
def litAt (f : Frame) : List Nat := ((List.finRange 25).filter fun p => decide (f[p] ≠ 0#24)).map Fin.val

/-! ## WellFormed: one ill-formed term for each check -/

theorem test_refuse_timeBits_zero : ({ fixRaw rowMajor with timeBits := 0 } : RawConfig).timeBitsOk = false := by decide
theorem test_refuse_debounce_too_wide : ({ fixRaw rowMajor with debounceMs := 2 ^ 32 } : RawConfig).debounceOk = false := by decide
theorem test_refuse_blink_too_wide : ({ fixRaw rowMajor with blinkMs := 2 ^ 32 } : RawConfig).blinkOk = false := by decide
theorem test_refuse_map_out_of_range : ({ fixRaw rowMajor with physMap := rowMajor.set 24 25#5 } : RawConfig).mapRangeOk = false := by decide
theorem test_refuse_map_repeated : ({ fixRaw rowMajor with physMap := rowMajor.set 24 0#5 } : RawConfig).mapDistinctOk = false := by decide
theorem test_check_refuses : ({ fixRaw rowMajor with physMap := rowMajor.set 24 0#5 } : RawConfig).check = none := by decide
theorem test_check_accepts : (fixRaw rotFix).check = some fixRot := by decide
theorem test_refuse_input_too_wide : (Input.cmd 0x4000#16 (2 ^ 32)).wf 32 = false := by decide
theorem test_refuse_reset_too_wide : (Input.reset (2 ^ 32)).wf 32 = false := by decide

/-! ## Decode: every constructor at every operand, from 95_test_vectors.md 3.1, and Illegal words -/

theorem test_decode_edge :
    decode 0x1000#16 = .legal (.edge .A .low) ∧ decode 0x1400#16 = .legal (.edge .A .high) ∧
    decode 0x1800#16 = .legal (.edge .B .low) ∧ decode 0x1C00#16 = .legal (.edge .B .high) := by decide
theorem test_decode_tick :
    decode 0x2000#16 = .legal (.tick .low .low) ∧ decode 0x2400#16 = .legal (.tick .low .high) ∧
    decode 0x2800#16 = .legal (.tick .high .low) ∧ decode 0x2C00#16 = .legal (.tick .high .high) := by decide
theorem test_decode_blinken : decode 0x3000#16 = .legal (.blinken false) ∧ decode 0x3800#16 = .legal (.blinken true) := by decide
theorem test_decode_render : decode 0x4000#16 = .legal .render := by decide
theorem test_decode_bitwise :
    decode 0b0001_1_1_0000000000#16 = .legal (.edge .B .high) ∧ decode 0b0010_0_1_0000000000#16 = .legal (.tick .low .high) ∧
    decode 0b0011_1_0_0000000000#16 = .legal (.blinken true) ∧ decode 0b0100_0_0_0000000000#16 = .legal .render := by decide
theorem test_decode_illegal_reserved :
    [0x1001#16, 0x1200#16, 0x13FF#16, 0x2200#16, 0x4001#16, 0xFFFF#16].map decode = List.replicate 6 (.illegal .reservedBits) := by decide
theorem test_decode_illegal_operand :
    [0x3400#16, 0x3C00#16, 0x4400#16, 0x4800#16].map decode =
      [.illegal .blinkenOperand, .illegal .blinkenOperand, .illegal .renderOperand, .illegal .renderOperand] := by decide
theorem test_decode_illegal_op : [0x0000#16, 0x5000#16, 0xF000#16].map decode = List.replicate 3 (.illegal .unknownOp) := by decide
theorem test_encode_edge : encode (.edge .B .low) = 0x1800#16 ∧ encode (.edge .A .high) = 0x1400#16 := by decide
theorem test_encode_tick : encode (.tick .low .high) = 0x2400#16 ∧ encode (.tick .high .low) = 0x2800#16 := by decide
theorem test_encode_blinken_render : encode (.blinken true) = 0x3800#16 ∧ encode .render = 0x4000#16 := by decide
theorem test_table_words :
    decodeTableWord 16 0x1000 = some (.edge .A .low) ∧ decodeTableWord 16 0x2000 = some (.tick .low .low) ∧
    decodeTableWord 16 0x3000 = some (.blinken false) ∧ decodeTableWord 16 0x4000 = some .render ∧
    decodeTableWord 16 0x0000 = none := by decide

/-! ## The first step after reset runs the placed word -/

theorem test_first_step_edge :
    step (State.reset.withFetchWord 16 0x1000) =
      exec (.edge .A .low) { State.reset with now := timeValue Config.atReset.timeBits resetTime } := rfl
theorem test_first_step_tick :
    step (State.reset.withFetchWord 16 0x2000) =
      exec (.tick .low .low) { State.reset with now := timeValue Config.atReset.timeBits resetTime } := rfl
theorem test_first_step_blinken :
    step (State.reset.withFetchWord 16 0x3000) =
      exec (.blinken false) { State.reset with now := timeValue Config.atReset.timeBits resetTime } := rfl
theorem test_first_step_render :
    step (State.reset.withFetchWord 16 0x4000) =
      exec .render { State.reset with now := timeValue Config.atReset.timeBits resetTime } := rfl
theorem test_first_step_is_next :
    (nextOf (step (State.reset.withFetchWord 16 0x2000))).isSome = true ∧
    (nextOf (step (State.reset.withFetchWord 16 0x0000))).isSome = true := by decide

/-! ## EDGE (vectors E1, E3) -/

theorem test_edge_opens_window :
    (nextOf (exec (.edge .A .low) (base 1000))).map (fun t => (t.chanA, t.chanB)) =
      some ({ state := .debouncing, t := 1000 }, { state := .released, t := 0 }) := by decide
theorem test_edge_keeps_first_stamp :
    (nextOf (exec (.edge .A .low) { base 1020 with chanA := { state := .debouncing, t := 1000 } })).map State.chanA =
      some { state := .debouncing, t := 1000 } := by decide

/-! ## TICK (vectors T2 and D9) -/

theorem test_tick_press_then_frame_then_indicator :
    (nextOf (exec (.tick .low .high) { base 100 with chanA := { state := .debouncing, t := 50 } })).map
        (fun t => (t.chanA, t.digit, t.blink, t.indicator, t.events.map blankFrame)) =
      some ({ state := .pressed, t := 50 }, 1, { active := true, phase := true, t := 100 }, 0b100#3,
        [.press .A 1, .frame darkFrame, .indicator 0b100#3]) := by decide
theorem test_tick_window_across_wrap :
    (nextOf (exec (.tick .low .high) { base 0x21 with chanA := { state := .debouncing, t := 0xFFFFFFF0 } })).map State.chanA =
        some { state := .debouncing, t := 0xFFFFFFF0 } ∧
    (nextOf (exec (.tick .low .high) { base 0x22 with chanA := { state := .debouncing, t := 0xFFFFFFF0 } })).map State.chanA =
        some { state := .pressed, t := 0xFFFFFFF0 } := by decide

/-! ## BLINKEN (vectors B5, B6) -/

theorem test_blinken_suspends :
    (nextOf (exec (.blinken false) { base 150 with blink := { active := true, phase := true, t := 100 }, indicator := 0b100#3 })).map
        (fun t => (t.blink, t.indicator, t.events)) =
      some ({ active := false, phase := true, t := 100 }, 0b100#3, []) := by decide
theorem test_blinken_resumes :
    (nextOf (exec (.blinken true) { base 300 with blink := { active := false, phase := true, t := 100 } })).map State.blink =
      some { active := true, phase := true, t := 100 } := by decide

/-! ## RENDER and the tables (vectors 3.5) -/

theorem test_render_after_reset :
    (nextOf (exec .render (base 0))).map (fun t => litAt t.fb) = some [1, 2, 3, 5, 9, 10, 14, 15, 19, 21, 22, 23] := by decide
theorem test_render_map_direction :
    litAt (render fixRot 1) = [3, 7, 8, 13, 18, 22, 23, 24] ∧ litAt (render fixSerp 2) = [0, 1, 2, 3, 5, 11, 12, 13, 19, 20, 21, 22, 23, 24] := by decide
theorem test_render_scatter : renderScatter fixRot 7 = render fixRot 7 ∧ litAt (render fixRot 7) = [1, 2, 3, 4, 5, 10, 14, 18, 23] := by decide +kernel
theorem test_pixel_words :
    ([.RGB, .RBG, .GRB, .GBR, .BRG, .BGR] : List ChannelOrder).map (fun o => pix o { r := 0x11#8, g := 0x22#8, b := 0x33#8 }) =
      [0x112233#24, 0x113322#24, 0x221133#24, 0x223311#24, 0x331122#24, 0x332211#24] := by decide
theorem test_wire_order : (wirePixel 0xC00001#24).take 3 = [true, true, false] ∧ (wirePixel 0xC00001#24)[23]? = some true := by decide
theorem test_outputs :
    digitOut { base 0 with digit := 9 } = 9#4 ∧ indicatorOut { base 0 with indicator := 0b100#3 } = 0b100#3 ∧ errOut (base 0) = false ∧
    fbOut (base 0) = darkFrame ∧ indicatorRed 0b100#3 = true ∧ indicatorGreen 0b100#3 = false ∧ indicatorBlue 0b100#3 = false := by decide

/-! ## The step function: Illegal (X2) and RESET (X3) -/

theorem test_illegal_word :
    (nextOf (step { base 0 with inputs := [.cmd 0x4800#16 7] })).map (fun t => (t.errIllegal, t.digit, t.events, t.inputs, t.now)) =
      some (true, 0, [], [], 7) := by decide
theorem test_reset_input :
    nextOf (step { base 0 with inputs := [.reset 500], digit := 7, errIllegal := true, indicator := 0b100#3 }) =
      some (startState fix 500) := by decide
theorem test_now_is_narrowed :
    (nextOf (step { base 0 with inputs := [.cmd 0x1000#16 (2 ^ 32 + 5)] })).map State.chanA =
      some { state := .debouncing, t := 5 } := by decide

/-! ## The assembler syntax (30_encoding.md R99, R100; lines of programs P1 and P2) -/

theorem test_asm_edge : readLine "@100  EDGE A, LOW   ; A".toList = some { now := 100, op := .edge .A .low } := by decide
theorem test_asm_tick : (readLine "@60 TICK HIGH, LOW".toList).map assemble = some (.cmd 0x2800#16 60) := by decide
theorem test_asm_reset : (readLine "@0 RESET".toList).map assemble = some (.reset 0) := by decide
theorem test_asm_pseudo : (readLine "@7 RELEASE B".toList).map assemble = some (.cmd 0x1C00#16 7) := by decide
theorem test_asm_text : lineText { now := 320, op := .tick .low .high } = "@320 TICK LOW, HIGH" := by decide
theorem test_asm_refuses : readLine "@5 EDGE C, LOW".toList = none ∧ readLine "@ RENDER".toList = none := by decide

/-! ## The host contract (45_control_loop.md R265), clause by clause: a stream it admits, and one that it bars -/

/-- The block right after a reset at 0 under FIX, with inputs waiting. -/
def afterReset (xs : List Input) : State := { startState fix 0 with inputs := xs }

/-- The host at that reset: both pins released, the first TICK due at 10. -/
def hostAtReset : HostView := .atReset .high .high 0 10

/-- The host's inputs keep to one clause of the contract. -/
def keepsFromReset (allows : HostView → State → Input → Bool) (xs : List Input) : Bool :=
  keeps allows xs hostAtReset (afterReset xs)

theorem test_contract_pins :
    keepsFromReset HostView.pinsAllow [.cmd 0x1800#16 5, .cmd 0x2800#16 10, .cmd 0x1C00#16 12, .cmd 0x2C00#16 20] = true ∧
    keepsFromReset HostView.pinsAllow [.cmd 0x1800#16 5, .cmd 0x1800#16 7] = false ∧
    keepsFromReset HostView.pinsAllow [.cmd 0x1800#16 5, .cmd 0x2C00#16 10] = false := by decide
theorem test_contract_time :
    keepsFromReset HostView.timeAllows [.cmd 0x4000#16 (2 ^ 32), .cmd 0x3000#16 (2 ^ 32)] = true ∧
    keepsFromReset HostView.timeAllows [.cmd 0x2C00#16 (2 ^ 32 - 1)] = true ∧
    keepsFromReset HostView.timeAllows [.cmd 0x2C00#16 (2 ^ 32)] = false ∧
    keepsFromReset HostView.timeAllows [.cmd 0x4000#16 9, .cmd 0x4000#16 8] = false := by decide
theorem test_contract_ticks :
    keepsFromReset HostView.tickAllows [.cmd 0x1000#16 3, .cmd 0x2400#16 10, .cmd 0x4000#16 20, .cmd 0x2400#16 20] = true ∧
    keepsFromReset HostView.tickAllows [.cmd 0x4000#16 11] = false ∧
    keepsFromReset HostView.tickAllows [.cmd 0x2C00#16 10, .cmd 0x4000#16 21] = false ∧
    keepsFromReset HostView.tickAllows [.cmd 0x2C00#16 9] = false := by decide

end Sys2Proof.Tests
end

