-- ==== Sys2Proof/Tests/Witnesses.lean ====
section
/-! SUPPORT. For each statement with hypotheses, a concrete state and operands that meet all of them together; one for each
clause where a statement has several. -/

namespace Sys2Proof.Tests

open Sys2Proof.Machine

/-- The next input is `x`, at the state right after reset. -/
def waiting (xs : List Input) (s : State) : State := { s with inputs := xs }

/-- A in its window, which a tick at 1050 closes. -/
def closing : State := { base 1050 with chanA := { state := .debouncing, t := 1000 } }

/-- A in its window, still open. -/
def opened : State := { base 1049 with chanA := { state := .debouncing, t := 1000 } }

/-- A held. -/
def held : State := { base 1060 with chanA := { state := .pressed, t := 1000 } }

/-- Both windows close at this tick (vector T1). -/
def both : State :=
  { base 60 with chanA := { state := .debouncing, t := 5 }, chanB := { state := .debouncing, t := 7 } }

/-- A run of `k` steps ends in a next state that passes a check. -/
theorem run_with (k : Nat) (s : State) (p : State → Bool)
    (h : (nextOf (Host.Core.run Sys2Proof.core k s)).any p = true) :
    ∃ t : State, Host.Core.run Sys2Proof.core k s = .next t ∧ p t = true := next_with p h

/-! ## Time, reset, state -/

theorem witness_ElapsedIsExactWithinOneWrap :
    Fresh 32 0xFFFFFFF0 0x100000022 ∧ Fresh 4 7 7 ∧ Fresh 4 7 22 ∧ ¬Fresh 4 7 23 := by decide

/-- The host and the block with A in its window since reading 5, the last stamp across a wrap of the counter. -/
def hostWrapped : HostView :=
  { hostAtReset with pinA := .low, reading := 2 ^ 32 + 9, tickDue := 2 ^ 32 + 10, stampA := 2 ^ 32 - 3, stampBlink := 2 ^ 32 - 90 }
def wrapped : State :=
  { startState fix 0 with
    chanA := { state := .debouncing, t := 2 ^ 32 - 3 }
    blink := { active := true, phase := false, t := 2 ^ 32 - 90 }
    inputs := [.cmd 0x2400#16 (2 ^ 32 + 10)] }

theorem witness_ElapsedIsExact_contract :
    TimeContract hostWrapped wrapped ∧ decode 0x2400#16 = .legal (.tick .low .high) ∧
    (wrapped.chan .A).state = .debouncing ∧ wrapped.blink.active = true :=
  ⟨⟨by intro c; cases c <;> decide, by decide, by decide⟩, by decide, rfl, rfl⟩

theorem witness_ResetInputReplacesState :
    (waiting [.reset 500, .cmd 0x4000#16 501] held).inputs = .reset 500 :: [.cmd 0x4000#16 501] := rfl

theorem witness_ChannelStateTransitions_reset :
    ∃ t, step (waiting [.reset 500] held) = .next t ∧ decide ((t.chan .A).state ≠ (held.chan .A).state) = true :=
  next_with _ (by decide)
theorem witness_ChannelStateTransitions_edge :
    ∃ t, step (waiting [.cmd 0x1800#16 500] held) = .next t ∧
      decide ((t.chan .B).state ≠ (held.chan .B).state ∧ (t.chan .B).state = .debouncing) = true :=
  next_with _ (by decide)
theorem witness_ChannelStateTransitions_confirm :
    ∃ t, step (waiting [.cmd 0x2400#16 1050] closing) = .next t ∧ decide ((t.chan .A).state = .pressed) = true :=
  next_with _ (by decide)
theorem witness_ChannelStateTransitions_reject :
    ∃ t, step (waiting [.cmd 0x2C00#16 1050] closing) = .next t ∧ decide ((t.chan .A).state = .released) = true :=
  next_with _ (by decide)
theorem witness_ChannelStateTransitions_release :
    ∃ t, step (waiting [.cmd 0x2C00#16 1070] held) = .next t ∧ decide ((t.chan .A).state = .released) = true :=
  next_with _ (by decide)

theorem witness_StampWritten_edge :
    ∃ t, step (waiting [.cmd 0x1000#16 500] (base 0)) = .next t ∧ decide ((t.chan .A).t ≠ ((base 0).chan .A).t) = true :=
  next_with _ (by decide)
theorem witness_StampWritten_reset :
    ∃ t, step (waiting [.reset 500] (base 0)) = .next t ∧ decide ((t.chan .A).t ≠ ((base 0).chan .A).t) = true :=
  next_with _ (by decide)
theorem witness_StampRead_outside_window :
    (held.chan .A).state ≠ .debouncing ∧
    (∃ t, exec (.tick .high .high) held = .next t ∧ decide (t.chanA.state = .released) = true) ∧
    (∃ t, exec (.tick .high .high) (held.setChan .A { held.chan .A with t := 3 }) = .next t ∧
      decide (t.chanA = { state := .released, t := 3 }) = true) :=
  ⟨by decide, next_with _ (by decide), next_with _ (by decide)⟩

theorem witness_StampRead_no_tick :
    (opened.chan .A).state = .debouncing ∧
    (∃ t, step (waiting [.cmd 0x1000#16 1049] opened) = .next t ∧ decide (t.chanA.t = 1000) = true) ∧
    (∃ t, step ((waiting [.cmd 0x1000#16 1049] opened).setChan .A { opened.chan .A with t := 3 }) = .next t ∧
      decide (t.chanA.t = 3) = true) :=
  ⟨by decide, next_with _ (by decide), next_with _ (by decide)⟩
theorem witness_StampRead_no_tick_premise (lvlA lvlB : Level) :
    ¬NextIsCommand (waiting [.cmd 0x1000#16 1049] opened) (.tick lvlA lvlB) := by
  rintro ⟨w, n, rest, hi, hd⟩
  cases hi
  cases hd
theorem witness_StampRead_window :
    (fix.debounceMs ≤ elapsed fix.timeBits closing.now (closing.chan .A).t ↔
      fix.debounceMs ≤ elapsed fix.timeBits closing.now 900) ∧
    (fix.debounceMs ≤ elapsed fix.timeBits opened.now (opened.chan .A).t ↔
      fix.debounceMs ≤ elapsed fix.timeBits opened.now opened.now) := by decide

theorem witness_StateAndDigitCodes : 10 ≤ (10#4).toNat ∧ 10 ≤ (15#4).toNat := by decide

theorem base_inv : Inv (base 0) :=
  ⟨by decide, by decide, by decide, by decide, by decide, by decide⟩
theorem witness_StepKeepsInv :
    Inv (waiting [.cmd 0x2400#16 100] (base 0)) ∧
    ∃ t, step (waiting [.cmd 0x2400#16 100] (base 0)) = .next t ∧ decide (t.blink.phase = true) = true :=
  ⟨⟨by decide, by decide, by decide, by decide, by decide, by decide⟩, next_with _ (by decide)⟩

theorem witness_InvariantsHoldAfterReset : 0 < 2 ^ fix.timeBits ∧ 2 ^ 32 - 1 < 2 ^ fix.timeBits := by decide

theorem witness_StepKeepsFrameShowingDigit_dark :
    FrameShowsDigit (waiting [.cmd 0x2400#16 1050] closing) ∧
    ∃ t, step (waiting [.cmd 0x2400#16 1050] closing) = .next t ∧ decide (t.digit = 1) = true :=
  ⟨.inl ⟨rfl, rfl⟩, next_with _ (by decide)⟩
theorem witness_StepKeepsFrameShowingDigit_shown :
    FrameShowsDigit (waiting [.cmd 0x2400#16 1050] { closing with digit := 4, fb := render fix 4 }) ∧
    ∃ t, step (waiting [.cmd 0x2400#16 1050] { closing with digit := 4, fb := render fix 4 }) = .next t ∧
      decide (t.digit = 5) = true :=
  ⟨.inr rfl, next_with _ (by decide)⟩

theorem witness_ReachableStatesMeetInvariants : Reachable (waiting [.cmd 0x4000#16 3] (startState fix 0)) :=
  .supply _ _ (.start fix 0 (by decide))

theorem witness_ConfigurationIsNeverWritten :
    ∃ t : State, Host.Core.run Sys2Proof.core 2 (waiting [.cmd 0x1000#16 500, .reset 600] (base 0)) = .next t ∧
      decide (t.chanA.t = 600) = true := run_with _ _ _ (by decide)

/-! ## Layouts and encoding -/

theorem witness_PixelWordLayout :
    ((0x22#8, 0x11#8, 0x33#8) : BitVec 8 × BitVec 8 × BitVec 8) =
      (match ChannelOrder.GRB with
        | .RGB => (0x11#8, 0x22#8, 0x33#8)
        | .RBG => (0x11#8, 0x33#8, 0x22#8)
        | .GRB => (0x22#8, 0x11#8, 0x33#8)
        | .GBR => (0x22#8, 0x33#8, 0x11#8)
        | .BRG => (0x33#8, 0x11#8, 0x22#8)
        | .BGR => (0x33#8, 0x22#8, 0x11#8)) := rfl

theorem witness_DecodeEncodeAgree :
    Instr.wf (.tick .low .high) = true ∧ decode 0x2400#16 = .legal (.tick .low .high) := by decide

/-! ## EDGE -/

theorem witness_EdgeTouchesOnlyItsChannel :
    (∃ t, exec (.edge .A .low) (base 5) = .next t ∧ decide (t.chanA.state = .debouncing) = true) ∧
    ((startState fixZero 77).chan .A).state = ((base 5).chan .A).state ∧
    (∃ t, exec (.edge .A .low) (startState fixZero 77) = .next t ∧
      decide (t.chanA = { state := .debouncing, t := 77 }) = true) :=
  ⟨next_with _ (by decide), rfl, next_with _ (by decide)⟩

theorem witness_RepeatedEdgeIsIdempotent :
    (held.chan .A).state ≠ .released ∧ ((base 5).chan .B).state = .released ∧
    ∃ t, exec (.edge .B .low) (base 5) = .next t ∧ decide (t.chanB = { state := .debouncing, t := 5 }) = true :=
  ⟨by decide, rfl, next_with _ (by decide)⟩

/-! ## The debounce step -/

theorem witness_BoundaryTickConfirmsExactlyOnce :
    (closing.chan .A).state = .debouncing ∧
    elapsed closing.cfg.timeBits closing.now (closing.chan .A).t = closing.cfg.debounceMs := by decide

theorem witness_BounceIsRejected :
    (closing.chan .A).state = .debouncing ∧
    closing.cfg.debounceMs ≤ elapsed closing.cfg.timeBits closing.now (closing.chan .A).t := by decide

theorem witness_OpenWindowIgnoresLevel :
    (opened.chan .A).state = .debouncing ∧
    elapsed opened.cfg.timeBits opened.now (opened.chan .A).t < opened.cfg.debounceMs := by decide

theorem witness_TickOnReleasedOrPressedChannel :
    (held.chan .A).state ≠ .debouncing ∧ (held.chan .B).state ≠ .debouncing := by decide

theorem witness_TickTreatsChannelsIndependently :
    closing.cfg = { closing with digit := 8 }.cfg ∧ closing.chan .A = { closing with digit := 8 }.chan .A ∧
    (∃ t, exec (.tick .low .high) closing = .next t ∧ decide (t.digit = 1) = true) ∧
    (∃ t, exec (.tick .low .low) { closing with digit := 8 } = .next t ∧ decide (t.digit = 9) = true) :=
  ⟨rfl, rfl, next_with _ (by decide), next_with _ (by decide)⟩

/-- Press edge, confirming tick, release: one press, one entry. -/
def pressRun : State := waiting [.cmd 0x1000#16 100, .cmd 0x2400#16 150, .cmd 0x2C00#16 160] (base 0)

theorem witness_PressesAreBoundedByEntries :
    ∃ t : State, Host.Core.run Sys2Proof.core 3 pressRun = .next t ∧
      decide (presses .A t.events = 1 ∧ entries .A 3 pressRun = 1) = true := run_with _ _ _ (by decide)

theorem witness_NoPressWithoutPressEdge :
    (held.chan .A).state ≠ .debouncing ∧
    (∀ x ∈ [Input.cmd 0x2000#16 1070, .reset 1080, .cmd 0x2000#16 1090], isPressEdge .A x = false) ∧
    ∃ t : State,
      Host.Core.run Sys2Proof.core 3 (waiting [.cmd 0x2000#16 1070, .reset 1080, .cmd 0x2000#16 1090] held) = .next t ∧
        decide (t.chanA.state = .released) = true :=
  ⟨by decide, by decide, run_with _ _ _ (by decide)⟩

/-! ## The digit -/

theorem witness_DigitChanges_reset :
    ∃ t, step (waiting [.reset 9] { base 0 with digit := 7 }) = .next t ∧ decide (t.digit ≠ 7) = true := next_with _ (by decide)
theorem witness_DigitChanges_press :
    ∃ t, step (waiting [.cmd 0x2400#16 1050] closing) = .next t ∧ decide (t.digit ≠ closing.digit) = true :=
  next_with _ (by decide)

theorem witness_DigitCountsPresses :
    (∀ x ∈ pressRun.inputs, isReset x = false) ∧
    ∃ t : State, Host.Core.run Sys2Proof.core 3 pressRun = .next t ∧ decide (t.digit = 1) = true :=
  ⟨by decide, run_with _ _ _ (by decide)⟩

theorem witness_BothConfirmedInOneTick : confirms both .A .low = true ∧ confirms both .B .low = true := by decide

/-! ## The renderer -/

theorem witness_LitCount_lit : fgWord fix ≠ 0x000000#24 := by decide
theorem witness_LitCount_dark : fgWord fixDark = 0x000000#24 := by decide
theorem witness_LitCount_unset : patternCell fix 1 (mapInv fix 0) = false := by decide

theorem witness_MapOnlyMovesPixels :
    fixRot.toRawConfig = { (base 0).cfg.toRawConfig with physMap := fixRot.physMap } ∧
    (∃ t, exec .render (base 0) = .next t ∧ decide (t.fb[1] = 0xFF0000#24) = true) ∧
    (∃ t, exec .render { base 0 with cfg := fixRot } = .next t ∧ decide (t.fb[1] = 0x000000#24) = true) :=
  ⟨rfl, next_with _ (by decide), next_with _ (by decide)⟩

/-! ## The blink -/

theorem witness_BlinkIsIndependent_reads :
    (base 100).blink = { closing with now := 100 }.blink ∧
    (∃ t, exec (.tick .high .high) (base 100) = .next t ∧ decide (t.blink.phase = true) = true) ∧
    (∃ t, exec (.tick .low .low) { closing with now := 100 } = .next t ∧ decide (t.blink.phase = true) = true) :=
  ⟨rfl, next_with _ (by decide), next_with _ (by decide)⟩
theorem witness_BlinkIsIndependent_writes :
    (∃ t, step (waiting [.cmd 0x2C00#16 100] (base 0)) = .next t ∧ decide (t.blink.phase ≠ (base 0).blink.phase) = true) ∧
    (∃ t, step (waiting [.reset 100] (base 0)) = .next t ∧ decide (t.blink.t ≠ (base 0).blink.t) = true) :=
  ⟨next_with _ (by decide), next_with _ (by decide)⟩

/-- Ticks every 10 ms after the stamp 0, all pins high. -/
def regular : State := waiting (tickStream 0 10 10 (fun _ _ => .high) ++ []) (base 0)

theorem witness_BlinkTogglesAtCeilingOfPeriod :
    1 ≤ regular.cfg.blinkMs ∧ 10 = (regular.cfg.blinkMs + 10 - 1) / 10 ∧ 10 * 10 < 2 ^ regular.cfg.timeBits ∧
    regular.blink.active = true ∧ regular.blink.t = timeValue regular.cfg.timeBits 0 ∧
    regular.inputs = tickStream 0 10 10 (fun _ _ => .high) ++ [] := by decide

theorem witness_SuspendedBlinkHolds_run :
    (∀ x ∈ [Input.cmd 0x3000#16 300, .cmd 0x2C00#16 310], isReset x = false ∧ isBlinkOn x = false) ∧
    ∃ t : State,
      Host.Core.run Sys2Proof.core 2
        (waiting [.cmd 0x3000#16 300, .cmd 0x2C00#16 310] { base 0 with blink := { active := false, phase := true, t := 100 } }) =
        .next t ∧ decide (t.blink.phase = true) = true :=
  ⟨by decide, run_with _ _ _ (by decide)⟩
theorem witness_SuspendedBlinkHolds_resume :
    (∃ t, exec (.blinken true) { base 310 with blink := { active := false, phase := true, t := 100 } } = .next t ∧
      decide (t.blink.active = true) = true) ∧
    fix.blinkMs ≤ elapsed fix.timeBits 320 100 :=
  ⟨next_with _ (by decide), by decide⟩

theorem witness_ZeroPeriodTogglesEveryTick : (startState fixZero 50).cfg.blinkMs = 0 ∧ (startState fixZero 50).blink.active = true := by decide

/-! ## The host's contract -/

/-- Press A at 5, a tick every 10 ms, release at 65: held for DEBOUNCE_MS + POLL_MS. -/
def heldRun : State :=
  afterReset
    (.cmd 0x1000#16 5 :: ([10, 20, 30, 40, 50, 60].map fun n => .cmd 0x2400#16 n) ++ .cmd 0x1400#16 65 :: [.cmd 0x2C00#16 70])

theorem heldRun_contract : HostContract hostAtReset heldRun where
  channel_stamps := by intro c; cases c <;> decide
  blink_stamp := by decide
  time := by decide
  pins := by decide
  next_tick := by decide
  ticks := by decide
  driver := by decide

theorem witness_HostContractIsKept_start :
    (7 ≤ 7 ∧ 7 ≤ 7 + (fix.pollMs : Nat)) ∧ (7 ≤ 17 ∧ 17 ≤ 7 + (fix.pollMs : Nat)) := by decide
theorem witness_HostContractIsKept_step :
    HostContract hostAtReset heldRun ∧ ∃ t, step heldRun = .next t ∧ decide (t.chanA.state = .debouncing) = true :=
  ⟨heldRun_contract, next_with _ (by decide)⟩

theorem witness_HeldPressIsCountedOnce :
    HostContract hostAtReset heldRun ∧ decode 0x1000#16 = .legal (.edge .A .low) ∧
    (heldRun.chan .A).state = .released ∧
    (∀ y ∈ [10, 20, 30, 40, 50, 60].map fun n => Input.cmd 0x2400#16 n, isReset y = false ∧ isReleaseEdge .A y = false) ∧
    5 + max 1 heldRun.cfg.debounceMs + heldRun.cfg.pollMs ≤ inputReading (.cmd 0x1400#16 65) :=
  ⟨heldRun_contract, by decide, rfl, by decide, by decide⟩

/-! An endless stream that keeps the contract: a tick every 10 ms, with both intervals 0. -/

/-- The `m`-th tick of the endless stream, with both pins released. -/
def beat (m : Nat) : Input := .cmd 0x2C00#16 (10 * (m + 1))

/-- The block and the host after `m` beats. -/
structure Beating (m : Nat) (h : HostView) (s : State) : Prop where
  cfg : s.cfg = fixZero
  channels : ∀ c, (s.chan c).state = .released
  active : s.blink.active = true
  pins : h.pinA = .high ∧ h.pinB = .high
  reading : h.reading = 10 * m
  tickDue : h.tickDue = 10 * (m + 1)
  stampBlink : h.stampBlink = 10 * m

theorem inputInstr_beat (m : Nat) : inputInstr (beat m) = some (.tick .high .high) := inputInstr_legal _ (by decide)
theorem isTick_beat (m : Nat) : isTick (beat m) = true := (isTick_iff _).mpr ⟨_, _, inputInstr_beat m⟩

/-- A beat toggles the blink and keeps the rest. -/
theorem step_beat (m : Nat) (s : State) (xs : List Input) (h : HostView) (hb : Beating m h s) :
    step { s with inputs := beat m :: xs } = .next (toggle (accept (beat m) xs s)) := by
  have hquiet : ∀ c u, (∀ c', (u.chan c').state = .released) → tickChannel c .high u = u := by
    intro c u hu; simp [tickChannel, debounce, hu c]
  have hchan : ∀ c, ((accept (beat m) xs s).chan c).state = .released := fun c => by rw [accept_chan]; exact hb.channels c
  have hrun : step { s with inputs := beat m :: xs } = exec (.tick .high .high) (accept (beat m) xs s) := by
    rw [step, fetch_cons _ (beat m) xs rfl]
    rfl
  have hexec : exec (.tick .high .high) (accept (beat m) xs s) = .next (blinkStep (accept (beat m) xs s)) := by
    show Host.Outcome.next (blinkStep (tickChannel .B .high (tickChannel .A .high _))) = _
    rw [hquiet .A _ hchan, hquiet .B _ hchan]
  have hdue : blinkDue (accept (beat m) xs s) = true := by
    simp only [blinkDue, accept_blink, accept_cfg, hb.active, hb.cfg, Bool.true_and, decide_eq_true_eq]
    exact Nat.zero_le _
  rw [hrun, hexec, blinkStep, hdue]
  rfl

theorem beating_after (m : Nat) (s : State) (xs : List Input) (h : HostView) (hb : Beating m h s) :
    Beating (m + 1) (h.after (beat m) s (toggle (accept (beat m) xs s))) (toggle (accept (beat m) xs s)) where
  cfg := hb.cfg
  channels := fun c => by rw [toggle_chan, accept_chan]; exact hb.channels c
  active := by simpa using hb.active
  pins := by simpa [HostView.after, inputInstr_beat] using hb.pins
  reading := rfl
  tickDue := by
    rw [after_tickDue, isTick_beat, hb.tickDue, hb.cfg]
    show 10 * (m + 1) + 10 = 10 * (m + 1 + 1)
    omega
  stampBlink := by
    rw [after_stampBlink]
    simp [inputReading, beat]

theorem beats_keep (allows : HostView → State → Input → Bool)
    (hallow : ∀ m h s, Beating m h s → allows h s (beat m) = true) (k : Nat) :
    ∀ (m : Nat) (h : HostView) (s : State), Beating m h s →
      keeps allows ((List.range k).map fun i => beat (m + i)) h s = true := by
  induction k with
  | zero => intro m h s _; rfl
  | succ k ih =>
    intro m h s hb
    have hsplit : ((List.range (k + 1)).map fun i => beat (m + i)) = beat m :: (List.range k).map fun i => beat (m + 1 + i) := by
      rw [List.range_succ_eq_map, List.map_cons, List.map_map]
      simp [Function.comp_def, Nat.add_assoc, Nat.add_comm 1]
    rw [hsplit, keeps, step_beat m s _ h hb, hallow m h s hb]
    exact ih (m + 1) _ _ (beating_after m s _ h hb)

theorem beat_allowed (m : Nat) (h : HostView) (s : State) (hb : Beating m h s) :
    h.timeAllows s (beat m) = true ∧ h.pinsAllow s (beat m) = true ∧ h.tickAllows s (beat m) = true := by
  have hA : s.chanA.state = .released := hb.channels .A
  have hB : s.chanB.state = .released := hb.channels .B
  refine ⟨?_, ?_, ?_⟩
  · have hlt : 10 * (m + 1) < 10 * m + 2 ^ s.cfg.timeBits := by
      rw [hb.cfg]
      show 10 * (m + 1) < 10 * m + 2 ^ 32
      omega
    simp only [HostView.timeAllows, HostView.compared, isTick_beat, hA, hB, hb.active, hb.reading, hb.stampBlink,
      Bool.and_eq_true, decide_eq_true_eq, List.all_eq_true]
    refine ⟨by show 10 * m ≤ 10 * (m + 1); omega, ?_⟩
    simp only [reduceCtorEq, if_false, if_true, List.nil_append, List.mem_singleton, forall_eq]
    exact ⟨by show 10 * m ≤ 10 * (m + 1); omega, hlt⟩
  · simp [HostView.pinsAllow, inputInstr_beat, hb.pins]
  · simp [HostView.tickAllows, hb.tickDue, beat, inputReading]

/-- A clause that every beat keeps to is kept through every beginning of the stream. -/
theorem beats_keep_from_reset (allows : HostView → State → Input → Bool)
    (hallow : ∀ m h s, Beating m h s → allows h s (beat m) = true) (k : Nat) :
    keeps allows (firstInputs beat k) hostAtReset { startState fixZero 0 with inputs := firstInputs beat k } = true := by
  have hb : Beating 0 hostAtReset { startState fixZero 0 with inputs := firstInputs beat k } :=
    ⟨rfl, by intro c; cases c <;> rfl, rfl, ⟨rfl, rfl⟩, rfl, rfl, rfl⟩
  simpa [firstInputs] using beats_keep allows hallow k 0 _ _ hb

theorem beats_on_time (k : Nat) : TickContract hostAtReset { startState fixZero 0 with inputs := firstInputs beat k } where
  next_tick := ⟨by decide, show 10 ≤ 0 + (fixZero.pollMs : Nat) by decide⟩
  ticks := beats_keep_from_reset _ (fun m h s hb => (beat_allowed m h s hb).2.2) k

theorem beats_contract : HostContractForever hostAtReset (startState fixZero 0) beat where
  on_time := beats_on_time
  ticks_forever := fun n => ⟨n, le_rfl, isTick_beat n⟩
  beginning := fun k =>
    { beats_on_time k with
      channel_stamps := by intro c; cases c <;> rfl
      blink_stamp := rfl
      time := beats_keep_from_reset _ (fun m h s hb => (beat_allowed m h s hb).1) k
      pins := beats_keep_from_reset _ (fun m h s hb => (beat_allowed m h s hb).2.1) k
      driver := rfl }

theorem witness_ActiveBlinkTogglesForever :
    TicksForever hostAtReset (startState fixZero 0) beat ∧
    fixZero.blinkMs + (fixZero.pollMs : Nat) ≤ 2 ^ fixZero.timeBits ∧ (startState fixZero 0).blink.active = true ∧
    ∀ m, isReset (beat m) = false ∧ isBlinkOff (beat m) = false :=
  ⟨beats_contract.toTicksForever, by decide, rfl, fun m => ⟨rfl, by rw [isBlinkOff, inputInstr_beat]; decide⟩⟩

/-! ## TICK, the step function, errors -/

theorem witness_QuietTickOnlyReleasesChannels :
    confirms { held with now := 10 } .A .high = false ∧ confirms { held with now := 10 } .B .high = false ∧
    toggles { held with now := 10 } = false := by decide

theorem witness_PressLatency_confirmed :
    (Fresh fix.timeBits 1000 (105 * fix.pollMs) ∧
      closing.chan .A = { state := .debouncing, t := timeValue fix.timeBits 1000 } ∧
      closing.now = timeValue fix.timeBits (105 * fix.pollMs)) ∧
    (1000 + fix.debounceMs + fix.pollMs - 1) / fix.pollMs ≤ 105 := by decide
theorem witness_PressLatency_waiting :
    Fresh fix.timeBits 1000 (104 * fix.pollMs) ∧
    { closing with now := 1040 }.now = timeValue fix.timeBits (104 * fix.pollMs) ∧
    ¬(1000 + fix.debounceMs + fix.pollMs - 1) / fix.pollMs ≤ 104 := by decide

theorem witness_StepRunsDecodedCommand :
    (waiting [.cmd 0x2400#16 100] (base 0)).inputs = .cmd 0x2400#16 100 :: [] ∧
    decode 0x2400#16 = .legal (.tick .low .high) := by decide

theorem witness_IllegalWordSetsOnlyTheFlag :
    (waiting [.cmd 0x4800#16 100] (base 0)).inputs = .cmd 0x4800#16 100 :: [] ∧
    decode 0x4800#16 = .illegal .renderOperand := by decide

theorem witness_IdleStepKeepsState : (base 0).inputs = [] := rfl

theorem witness_ErrorFlagIsSticky :
    { pressRun with errIllegal := true }.errIllegal = true ∧
    (∀ x ∈ { pressRun with errIllegal := true }.inputs, isReset x = false) ∧
    ∃ t : State, Host.Core.run Sys2Proof.core 3 { pressRun with errIllegal := true } = .next t ∧ decide (t.digit = 1) = true :=
  ⟨rfl, by decide, run_with _ _ _ (by decide)⟩

theorem witness_CommandsIgnoreErrorFlag :
    ∃ t, exec (.tick .low .high) closing = .next t ∧ decide (t.digit = 1) = true := next_with _ (by decide)

theorem witness_StepAppendsAtMostFiveEvents :
    ∃ t, step (waiting [.cmd 0x2000#16 107] both) = .next t ∧ decide (t.events.length = 5) = true := next_with _ (by decide)

end Sys2Proof.Tests
end

/-! Facts that the proofs share: what one command and one step do, field by field. -/

namespace Sys2Proof.Machine

/-! ## Writes of a channel record -/

/-- The second of two writes of one channel stands. -/
@[simp] theorem setChan_setChan_self (s : State) (c : Chan) (v w : ButtonChannel) :
    (s.setChan c v).setChan c w = s.setChan c w := by cases c <;> rfl

/-- Writes of the two channels commute. -/
theorem setChan_setChan_comm (s : State) {c c' : Chan} (v w : ButtonChannel) (h : c' ≠ c) :
    (s.setChan c v).setChan c' w = (s.setChan c' w).setChan c v := by
  cases c with
  | A =>
    cases c' with
    | A => exact absurd rfl h
    | B => rfl
  | B =>
    cases c' with
    | A => rfl
    | B => exact absurd rfl h

/-! ## The parts of a TICK -/

/-- The levels that a TICK carries, by channel. -/
def tickLevels (lvlA lvlB : Level) : Chan → Level
  | .A => lvlA
  | .B => lvlB

/-- The state after a TICK with the levels `lv` (45_control_loop.md R260). -/
def afterTick (lv : Chan → Level) (s : State) : State :=
  blinkStep (tickChannel .B (lv .B) (tickChannel .A (lv .A) s))

@[simp] theorem tickChannel_cfg (c : Chan) (lvl : Level) (s : State) : (tickChannel c lvl s).cfg = s.cfg := by
  rw [tickChannel_spec]; split <;> simp
@[simp] theorem tickChannel_now (c : Chan) (lvl : Level) (s : State) : (tickChannel c lvl s).now = s.now := by
  rw [tickChannel_spec]; split <;> simp

/-- Its debounce step writes the state of the channel by the table of 41_debounce.md R141, and keeps the stamp. -/
@[simp] theorem tickChannel_chan_self (c : Chan) (lvl : Level) (s : State) :
    (tickChannel c lvl s).chan c =
      { state := stateAfter (s.chan c).state (windowClosed c s) (pressed lvl), t := (s.chan c).t } := by
  rw [tickChannel_spec]; split <;> simp

theorem tickChannel_chan_other (lvl : Level) (s : State) {c c' : Chan} (h : c' ≠ c) :
    (tickChannel c lvl s).chan c' = s.chan c' := by
  rw [tickChannel_spec]; split <;> simp [setChanState_chan_other s _ h]

@[simp] theorem blinkStep_cfg (s : State) : (blinkStep s).cfg = s.cfg := by rw [blinkStep]; split <;> simp
@[simp] theorem blinkStep_digit (s : State) : (blinkStep s).digit = s.digit := by rw [blinkStep]; split <;> simp
@[simp] theorem blinkStep_fb (s : State) : (blinkStep s).fb = s.fb := by rw [blinkStep]; split <;> simp
@[simp] theorem blinkStep_chan (s : State) (c : Chan) : (blinkStep s).chan c = s.chan c := by
  rw [blinkStep]; split <;> simp

/-- The window of a channel has closed, as the rule's condition. -/
theorem windowClosed_iff (c : Chan) (s : State) :
    windowClosed c s = true ↔ s.cfg.debounceMs ≤ elapsed s.cfg.timeBits s.now (s.chan c).t := decide_eq_true_iff

/-- Whether a window has closed depends on the configuration, `now` and the channel's own stamp. -/
theorem windowClosed_congr {c : Chan} {s t : State} (hcfg : t.cfg = s.cfg) (hnow : t.now = s.now)
    (hchan : t.chan c = s.chan c) : windowClosed c t = windowClosed c s := by
  rw [windowClosed, windowClosed, State.elapsedSince, State.elapsedSince, hcfg, hnow, hchan]

@[simp] theorem afterTick_cfg (lv : Chan → Level) (s : State) : (afterTick lv s).cfg = s.cfg := by
  simp [afterTick]

/-- What a TICK does to a channel is that channel's debounce step. -/
theorem afterTick_chan (lv : Chan → Level) (s : State) (c : Chan) :
    (afterTick lv s).chan c =
      { state := stateAfter (s.chan c).state (windowClosed c s) (pressed (lv c)), t := (s.chan c).t } := by
  rw [afterTick, blinkStep_chan]
  cases c with
  | A => rw [tickChannel_chan_other _ _ (by decide), tickChannel_chan_self]
  | B =>
    have hother : (tickChannel .A (lv .A) s).chan .B = s.chan .B := tickChannel_chan_other _ _ (by decide)
    rw [tickChannel_chan_self, hother, windowClosed_congr (tickChannel_cfg ..) (tickChannel_now ..) hother]

/-! ## Commands -/

theorem exec_edge (ch : Chan) (lvl : Level) (s : State) : exec (.edge ch lvl) s = execEdge ch lvl s := rfl
theorem exec_tick (lv : Chan → Level) (s : State) : exec (.tick (lv .A) (lv .B)) s = .next (afterTick lv s) := rfl
theorem exec_render (s : State) : exec .render s = .next (showDigit s) := rfl

/-- The state that each command ends in. -/
theorem exec_cases {i : Instr} {s t : State} (h : exec i s = .next t) :
    (∃ ch, i = .edge ch .low ∧ (s.chan ch).state = .released ∧
      t = s.setChan ch { state := .debouncing, t := s.now }) ∨
    (∃ ch lvl, i = .edge ch lvl ∧ ¬((s.chan ch).state = .released ∧ lvl = .low) ∧ t = s) ∨
    (∃ lv, i = .tick (lv .A) (lv .B) ∧ t = afterTick lv s) ∨
    (∃ en, i = .blinken en ∧ t = { s with blink := { s.blink with active := en } }) ∨
    (i = .render ∧ t = showDigit s) := by
  cases i with
  | edge ch lvl =>
    rw [exec_edge] at h
    obtain ⟨hrel, rfl, he⟩ | ⟨hno, he⟩ := execEdge_cases ch lvl s <;> cases he.symm.trans h
    · exact .inl ⟨ch, rfl, hrel, rfl⟩
    · exact .inr (.inl ⟨ch, lvl, rfl, hno, rfl⟩)
  | tick lvlA lvlB => cases h; exact .inr (.inr (.inl ⟨tickLevels lvlA lvlB, rfl, rfl⟩))
  | blinken en => cases h; exact .inr (.inr (.inr (.inl ⟨en, rfl, rfl⟩)))
  | render => cases h; exact .inr (.inr (.inr (.inr ⟨rfl, rfl⟩)))

theorem exec_cfg {i : Instr} {s t : State} (h : exec i s = .next t) : t.cfg = s.cfg := by
  obtain ⟨_, _, _, rfl⟩ | ⟨_, _, _, _, rfl⟩ | ⟨_, _, rfl⟩ | ⟨_, _, rfl⟩ | ⟨_, rfl⟩ := exec_cases h <;> simp

/-- What a command can do to a channel: leave it, open its window, or run its debounce step. -/
theorem exec_chan {i : Instr} {s t : State} (c : Chan) (h : exec i s = .next t) :
    t.chan c = s.chan c ∨
    (i = .edge c .low ∧ (s.chan c).state = .released ∧ t.chan c = { state := .debouncing, t := t.now }) ∨
    (∃ lv : Chan → Level, i = .tick (lv .A) (lv .B) ∧
      t.chan c = { state := stateAfter (s.chan c).state (windowClosed c s) (pressed (lv c)), t := (s.chan c).t }) := by
  obtain ⟨ch, rfl, hrel, rfl⟩ | ⟨_, _, _, _, rfl⟩ | ⟨lv, rfl, rfl⟩ | ⟨_, _, rfl⟩ | ⟨_, rfl⟩ := exec_cases h
  · by_cases hc : c = ch
    · subst hc; exact .inr (.inl ⟨rfl, hrel, by simp⟩)
    · exact .inl (setChan_chan_other _ _ hc)
  · exact .inl rfl
  · exact .inr (.inr ⟨lv, rfl, afterTick_chan ..⟩)
  · exact .inl (by cases c <;> rfl)
  · exact .inl (showDigit_chan ..)

/-! ## Steps and runs -/

theorem step_idle {s : State} (h : s.inputs = []) : step s = .next s := by rw [step, fetch_nil s h, idle]

theorem step_reset {s : State} {n : Nat} {rest : List Input} (h : s.inputs = .reset n :: rest) :
    step s = .next (applyReset (timeValue s.cfg.timeBits n) (accept (.reset n) rest s)) := by
  rw [step, fetch_cons s _ _ h]
  rfl

theorem step_legal {s : State} {w : Word} {n : Nat} {rest : List Input} {i : Instr} (h : s.inputs = .cmd w n :: rest)
    (hd : decode w = .legal i) : step s = exec i (accept (.cmd w n) rest s) := by
  simp [step, fetch_cons s _ _ h, inputRequest, applyRequest, hd]

theorem step_illegal {s : State} {w : Word} {n : Nat} {rest : List Input} {why : IllegalWord}
    (h : s.inputs = .cmd w n :: rest) (hd : decode w = .illegal why) :
    step s = .next (illegal (accept (.cmd w n) rest s)) := by
  simp [step, fetch_cons s _ _ h, inputRequest, applyRequest, hd]

theorem step_cfg {s t : State} (h : step s = .next t) : t.cfg = s.cfg := by
  obtain ⟨_, rfl⟩ | ⟨_, _, _, rfl⟩ | ⟨_, _, _, _, _, _, he⟩ | ⟨_, _, _, _, _, _, rfl⟩ := step_cases s t h
  · rfl
  · rfl
  · exact (exec_cfg he).trans (accept_cfg ..)
  · rfl

/-- What a step can do to a channel: leave it, reset it, open its window, or run its debounce step. -/
theorem step_chan {s t : State} (c : Chan) (h : step s = .next t) :
    t.chan c = s.chan c ∨
    (NextIsReset s ∧ (t.chan c).state = .released) ∨
    (NextIsCommand s (.edge c .low) ∧ (s.chan c).state = .released ∧ t.chan c = { state := .debouncing, t := t.now }) ∨
    (∃ (lv : Chan → Level) (closed : Bool), NextIsCommand s (.tick (lv .A) (lv .B)) ∧
      t.chan c = { state := stateAfter (s.chan c).state closed (pressed (lv c)), t := (s.chan c).t }) := by
  obtain ⟨_, rfl⟩ | ⟨n, rest, hi, rfl⟩ | ⟨w, n, rest, i, hi, hd, he⟩ | ⟨_, _, _, _, _, _, rfl⟩ := step_cases s t h
  · exact .inl rfl
  · exact .inr (.inl ⟨⟨n, rest, hi⟩, by simp⟩)
  · have hnext : NextIsCommand s i := ⟨w, n, rest, hi, hd⟩
    obtain hsame | ⟨rfl, hopen⟩ | ⟨lv, rfl, htick⟩ := exec_chan c he
    · exact .inl (by simpa using hsame)
    · exact .inr (.inr (.inl ⟨hnext, by simpa using hopen⟩))
    · exact .inr (.inr (.inr ⟨lv, _, hnext, by simpa using htick⟩))
  · exact .inl (by simp)

/-- A run of `k + 1` steps is a step and a run of `k` steps. -/
theorem run_succ {k : Nat} {s t : State} (h : Host.Core.run Sys2Proof.core (k + 1) s = .next t) :
    ∃ s', step s = .next s' ∧ Host.Core.run Sys2Proof.core k s' = .next t := by
  simp only [Host.Core.run] at h
  split at h
  · exact ⟨_, ‹_›, h⟩
  · cases h
  · cases h

end Sys2Proof.Machine

/-! The two invariants of a reachable state: each operation keeps them, so each command, each step and each run does. -/

namespace Sys2Proof.Machine

/-! ## Inv -/

/-- Both channels' stamps are within their width. -/
theorem Inv.chan_width {s : State} (hs : Inv s) (c : Chan) : (s.chan c).t < 2 ^ s.cfg.timeBits := by
  cases c with
  | A => exact hs.stampA_width
  | B => exact hs.stampB_width

theorem accept_keeps_inv {s : State} (hs : Inv s) (x : Input) (rest : List Input) : Inv (accept x rest s) :=
  { hs with now_width := timeValue_lt _ _ }

theorem illegal_keeps_inv {s : State} (hs : Inv s) : Inv (illegal s) := { hs with }

theorem setChan_keeps_inv {s : State} (hs : Inv s) (c : Chan) (v : ButtonChannel) (hv : v.t < 2 ^ s.cfg.timeBits) :
    Inv (s.setChan c v) := by
  cases c with
  | A => exact { hs with stampA_width := hv }
  | B => exact { hs with stampB_width := hv }

theorem setChanState_keeps_inv {s : State} (hs : Inv s) (c : Chan) (v : BtnState) : Inv (s.setChanState c v) :=
  setChan_keeps_inv hs c _ (hs.chan_width c)

/-- Every pixel of a rendered frame is 0 or `FGWORD`: the channel multiplexer (43_renderer.md R194). -/
theorem render_dark_or_lit (c : Config) (d : Digit) (p : Index) :
    (render c d)[p] = 0x000000#24 ∨ (render c d)[p] = fgWord c := by
  rw [render_getElem]
  split
  · exact .inr rfl
  · exact .inl rfl

theorem showDigit_keeps_inv {s : State} (hs : Inv s) : Inv (showDigit s) where
  indicator_follows_phase := by simpa using hs.indicator_follows_phase
  pixel_dark_or_lit p := by simpa only [showDigit_fb, showDigit_cfg] using render_dark_or_lit s.cfg s.digit p
  stampA_width := by simpa using hs.stampA_width
  stampB_width := by simpa using hs.stampB_width
  blink_width := by simpa using hs.blink_width
  now_width := by simpa using hs.now_width

theorem count_keeps_inv {s : State} (hs : Inv s) (c : Chan) : Inv (count c s) :=
  showDigit_keeps_inv { hs with }

theorem tickChannel_keeps_inv {s : State} (hs : Inv s) (c : Chan) (lvl : Level) : Inv (tickChannel c lvl s) := by
  have hstate := setChanState_keeps_inv hs c (stateAfter (s.chan c).state (windowClosed c s) (pressed lvl))
  rw [tickChannel_spec]
  split
  · exact count_keeps_inv hstate c
  · exact hstate

theorem blinkStep_keeps_inv {s : State} (hs : Inv s) : Inv (blinkStep s) := by
  obtain ⟨_, h⟩ | ⟨_, h⟩ := blinkStep_cases s <;> rw [h]
  · exact { hs with indicator_follows_phase := rfl, blink_width := hs.now_width }
  · exact hs

theorem exec_keeps_inv {i : Instr} {s t : State} (hs : Inv s) (h : exec i s = .next t) : Inv t := by
  obtain ⟨ch, _, _, rfl⟩ | ⟨_, _, _, _, rfl⟩ | ⟨lv, _, rfl⟩ | ⟨en, _, rfl⟩ | ⟨_, rfl⟩ := exec_cases h
  · exact setChan_keeps_inv hs ch _ hs.now_width
  · exact hs
  · exact blinkStep_keeps_inv (tickChannel_keeps_inv (tickChannel_keeps_inv hs .A (lv .A)) .B (lv .B))
  · exact { hs with }
  · exact showDigit_keeps_inv hs

theorem darkFrame_getElem (p : Index) : darkFrame[p] = 0x000000#24 := by simp [darkFrame]

/-- A reset input establishes the invariant from every state, at a time value of `TIME_BITS` bits. -/
theorem applyReset_inv {s : State} {n : Time} (hn : n < 2 ^ s.cfg.timeBits) (hnow : s.now < 2 ^ s.cfg.timeBits) :
    Inv (applyReset n s) where
  indicator_follows_phase := rfl
  pixel_dark_or_lit p := .inl (darkFrame_getElem p)
  stampA_width := hn
  stampB_width := hn
  blink_width := hn
  now_width := hnow

theorem startState_inv {c : Config} {now0 : Time} (h : now0 < 2 ^ c.timeBits) : Inv (startState c now0) where
  indicator_follows_phase := rfl
  pixel_dark_or_lit p := .inl (darkFrame_getElem p)
  stampA_width := h
  stampB_width := h
  blink_width := h
  now_width := h

/-- Settles O9: each way a step can end keeps the invariant, a command by `exec_keeps_inv`. -/
theorem stepKeepsInv : Obligations.StepKeepsInv := by
  intro s t hs h
  obtain ⟨_, rfl⟩ | ⟨n, rest, _, rfl⟩ | ⟨w, n, rest, i, _, _, he⟩ | ⟨w, n, rest, _, _, _, rfl⟩ := step_cases s t h
  · exact hs
  · exact applyReset_inv (timeValue_lt ..) (timeValue_lt ..)
  · exact exec_keeps_inv (accept_keeps_inv hs _ rest) he
  · exact illegal_keeps_inv (accept_keeps_inv hs _ rest)

/-! ## FrameShowsDigit -/

/-- The invariant reads the frame buffer, the digit and the configuration alone. -/
theorem FrameShowsDigit.congr {s t : State} (hs : FrameShowsDigit s) (hcfg : t.cfg = s.cfg) (hdigit : t.digit = s.digit)
    (hfb : t.fb = s.fb) : FrameShowsDigit t := by
  rwa [FrameShowsDigit, hcfg, hdigit, hfb]

theorem tickChannel_keeps_frameShowsDigit {s : State} (hs : FrameShowsDigit s) (c : Chan) (lvl : Level) :
    FrameShowsDigit (tickChannel c lvl s) := by
  rw [tickChannel_spec]
  split
  · exact .inr (by simp)
  · exact hs.congr (by simp) (by simp) (by simp)

theorem exec_keeps_frameShowsDigit {i : Instr} {s t : State} (hs : FrameShowsDigit s) (h : exec i s = .next t) :
    FrameShowsDigit t := by
  obtain ⟨_, _, _, rfl⟩ | ⟨_, _, _, _, rfl⟩ | ⟨lv, _, rfl⟩ | ⟨_, _, rfl⟩ | ⟨_, rfl⟩ := exec_cases h
  · exact hs.congr (by simp) (by simp) (by simp)
  · exact hs
  · exact (tickChannel_keeps_frameShowsDigit (tickChannel_keeps_frameShowsDigit hs .A (lv .A)) .B (lv .B)).congr
      (blinkStep_cfg _) (blinkStep_digit _) (blinkStep_fb _)
  · exact hs.congr rfl rfl rfl
  · exact .inr (by simp)

theorem step_keeps_frameShowsDigit {s t : State} (hs : FrameShowsDigit s) (h : step s = .next t) :
    FrameShowsDigit t := by
  obtain ⟨_, rfl⟩ | ⟨_, _, _, rfl⟩ | ⟨w, n, rest, _, _, _, he⟩ | ⟨_, _, _, _, _, _, rfl⟩ := step_cases s t h
  · exact hs
  · exact .inl ⟨rfl, rfl⟩
  · have haccept : FrameShowsDigit (accept (.cmd w n) rest s) := hs.congr rfl rfl rfl
    exact exec_keeps_frameShowsDigit haccept he
  · exact hs.congr rfl rfl rfl

/-! ## Reset and reachable states -/

theorem resetTime_lt : resetTime < 2 ^ Config.atReset.timeBits := timeValue_lt _ _

/-- `State.reset` is the state after reset of the open configuration at the open time value. -/
theorem reset_eq_startState : State.reset = startState Config.atReset resetTime := rfl

theorem startState_frameShowsDigit (c : Config) (now0 : Time) : FrameShowsDigit (startState c now0) := .inl ⟨rfl, rfl⟩

/-- Settles O10: a dark frame, an unlit indicator and stamps at `now0`, whatever the configuration. -/
theorem invariantsHoldAfterReset : Obligations.InvariantsHoldAfterReset := by
  unfold Obligations.InvariantsHoldAfterReset
  rw [reset_eq_startState]
  exact ⟨startState_inv resetTime_lt, startState_frameShowsDigit _ _,
    fun c now0 h => ⟨startState_inv h, startState_frameShowsDigit c now0⟩⟩

/-- Settles O12, by induction on how the state was reached. -/
theorem reachableStatesMeetInvariants : Obligations.ReachableStatesMeetInvariants := by
  intro s h
  induction h with
  | start c now0 h => exact ⟨startState_inv h, startState_frameShowsDigit c now0⟩
  | supply s xs _ ih =>
    obtain ⟨hinv, hframe⟩ := ih
    exact ⟨{ hinv with }, hframe.congr rfl rfl rfl⟩
  | step s t _ hs ih =>
    obtain ⟨hinv, hframe⟩ := ih
    exact ⟨stepKeepsInv s t hinv hs, step_keeps_frameShowsDigit hframe hs⟩

/-- Settles O3: the `now0` of the reset values is the open constant `resetTime`. -/
theorem resetStateHoldsResetValues : Obligations.ResetStateHoldsResetValues :=
  ⟨resetTime, resetTime_lt, rfl, rfl, rfl, rfl, rfl, darkFrame_getElem, rfl⟩

/-- Settles O13, by induction on the number of steps. -/
theorem configurationIsNeverWritten : Obligations.ConfigurationIsNeverWritten := by
  intro k
  induction k with
  | zero => rintro s t ⟨⟩; rfl
  | succ k ih =>
    intro s t h
    obtain ⟨s', hstep, hrun⟩ := run_succ h
    exact (ih s' t hrun).trans (step_cfg hstep)

end Sys2Proof.Machine

/-! Who writes a channel's state and stamp, and who reads the stamp (10_state.md R33, R34). -/

namespace Sys2Proof.Machine

/-- The table of 41_debounce.md R141 changes a state in three ways only. -/
theorem stateAfter_transitions {b : BtnState} {closed low : Bool} (h : stateAfter b closed low ≠ b) :
    (b = .debouncing ∧ stateAfter b closed low = .pressed) ∨
    (b = .debouncing ∧ stateAfter b closed low = .released) ∨
    (b = .pressed ∧ stateAfter b closed low = .released) := by
  cases b with
  | released => exact absurd rfl h
  | debouncing =>
    cases closed with
    | false => exact absurd rfl h
    | true =>
      cases low with
      | false => exact .inr (.inl ⟨rfl, rfl⟩)
      | true => exact .inl ⟨rfl, rfl⟩
  | pressed =>
    cases low with
    | false => exact .inr (.inr ⟨rfl, rfl⟩)
    | true => exact absurd (by cases closed <;> rfl) h

/-- Settles O5: what a step can do to a channel (`step_chan`), with the debounce step read from its table. -/
theorem channelStateTransitions : Obligations.ChannelStateTransitions := by
  intro s t c h hne
  obtain hsame | hreset | ⟨hnext, hrel, hopen⟩ | ⟨lv, closed, hnext, htick⟩ := step_chan c h
  · exact absurd (congrArg ButtonChannel.state hsame) hne
  · exact .inl hreset
  · exact .inr (.inl ⟨.low, hnext, hrel, by rw [hopen]⟩)
  · rw [htick] at hne ⊢
    exact .inr (.inr ⟨lv .A, lv .B, hnext, stateAfter_transitions hne⟩)

/-! ## Another stamp -/

/-- `s` with another stamp of channel `c`, its state kept. -/
def State.setChanStamp (s : State) (c : Chan) (u : Time) : State := s.setChan c { s.chan c with t := u }

@[simp] theorem setChanStamp_cfg (s : State) (c : Chan) (u : Time) : (s.setChanStamp c u).cfg = s.cfg := setChan_cfg ..
@[simp] theorem setChanStamp_now (s : State) (c : Chan) (u : Time) : (s.setChanStamp c u).now = s.now := setChan_now ..
@[simp] theorem setChanStamp_inputs (s : State) (c : Chan) (u : Time) : (s.setChanStamp c u).inputs = s.inputs :=
  setChan_inputs ..
@[simp] theorem setChanStamp_chan_self (s : State) (c : Chan) (u : Time) :
    (s.setChanStamp c u).chan c = { state := (s.chan c).state, t := u } := setChan_chan_self ..
theorem setChanStamp_chan_other (s : State) {c c' : Chan} (u : Time) (h : c' ≠ c) :
    (s.setChanStamp c u).chan c' = s.chan c' := setChan_chan_other _ _ h
@[simp] theorem setChanStamp_chan_state (s : State) (c c' : Chan) (u : Time) :
    ((s.setChanStamp c u).chan c').state = (s.chan c').state := by cases c <;> cases c' <;> rfl

/-! The operations that read no stamp commute with a change of one. -/

theorem setChanState_setChanStamp (s : State) (c c' : Chan) (u : Time) (v : BtnState) :
    (s.setChanStamp c u).setChanState c' v = (s.setChanState c' v).setChanStamp c u := by
  cases c <;> cases c' <;> rfl

theorem setChan_setChanStamp_other (s : State) {c c' : Chan} (u : Time) (v : ButtonChannel) (h : c' ≠ c) :
    (s.setChanStamp c u).setChan c' v = (s.setChan c' v).setChanStamp c u := by
  rw [State.setChanStamp, State.setChanStamp, setChan_setChan_comm s _ _ h, setChan_chan_other s v h.symm]

theorem accept_setChanStamp (x : Input) (rest : List Input) (s : State) (c : Chan) (u : Time) :
    accept x rest (s.setChanStamp c u) = (accept x rest s).setChanStamp c u := by cases c <;> rfl

theorem illegal_setChanStamp (s : State) (c : Chan) (u : Time) :
    illegal (s.setChanStamp c u) = (illegal s).setChanStamp c u := by cases c <;> rfl

theorem showDigit_setChanStamp (s : State) (c : Chan) (u : Time) :
    showDigit (s.setChanStamp c u) = (showDigit s).setChanStamp c u := by
  cases c <;> simp only [showDigit_spec, State.setChanStamp, State.setChan, State.chan]

theorem count_setChanStamp (c' : Chan) (s : State) (c : Chan) (u : Time) :
    count c' (s.setChanStamp c u) = (count c' s).setChanStamp c u := by
  cases c <;> simp only [count_spec, State.setChanStamp, State.setChan, State.chan]

theorem blinkStep_setChanStamp (s : State) (c : Chan) (u : Time) :
    blinkStep (s.setChanStamp c u) = (blinkStep s).setChanStamp c u := by
  have hdue : blinkDue (s.setChanStamp c u) = blinkDue s := by cases c <;> rfl
  rw [blinkStep, blinkStep, hdue]
  split
  · cases c <;> rfl
  · rfl

/-- A reset writes every stamp, so none before it is left. -/
theorem applyReset_setChanStamp (n : Time) (s : State) (c : Chan) (u : Time) :
    applyReset n (s.setChanStamp c u) = applyReset n s := by cases c <;> rfl

/-! A TICK reads a stamp of a `Debouncing` channel, and of it the side of the window alone. -/

/-- While channel `c` is `Debouncing`, the stamp `u` puts its window on the side that its own stamp does. -/
def SameWindow (s : State) (c : Chan) (u : Time) : Prop :=
  (s.chan c).state = .debouncing →
    (s.cfg.debounceMs ≤ elapsed s.cfg.timeBits s.now (s.chan c).t ↔
      s.cfg.debounceMs ≤ elapsed s.cfg.timeBits s.now u)

/-- The premise reads the configuration, `now` and the channel alone. -/
theorem SameWindow.congr {s t : State} {c : Chan} {u : Time} (h : SameWindow s c u) (hcfg : t.cfg = s.cfg)
    (hnow : t.now = s.now) (hchan : t.chan c = s.chan c) : SameWindow t c u := by
  rwa [SameWindow, hcfg, hnow, hchan]

theorem confirms_setChanStamp {s : State} {c : Chan} {u : Time} (h : SameWindow s c u) (lvl : Level) :
    confirms (s.setChanStamp c u) c lvl = confirms s c lvl := by
  rw [Bool.eq_iff_iff, confirms_iff, confirms_iff]
  simp only [setChanStamp_cfg, setChanStamp_now, setChanStamp_chan_self]
  exact and_congr_right fun hdeb => and_congr_left' (h hdeb).symm

theorem stateAfter_setChanStamp {s : State} {c : Chan} {u : Time} (h : SameWindow s c u) (low : Bool) :
    stateAfter (s.chan c).state (windowClosed c (s.setChanStamp c u)) low =
      stateAfter (s.chan c).state (windowClosed c s) low := by
  cases hst : (s.chan c).state with
  | released => rfl
  | pressed => cases low <;> rfl
  | debouncing =>
    have hside : windowClosed c (s.setChanStamp c u) = windowClosed c s := by
      rw [Bool.eq_iff_iff, windowClosed_iff, windowClosed_iff]
      simpa only [setChanStamp_cfg, setChanStamp_now, setChanStamp_chan_self] using (h hst).symm
    rw [hside]

/-- A channel's part of a tick takes another stamp of the same channel along, where both put the window on one side. -/
theorem tickChannel_setChanStamp_self {s : State} {c : Chan} {u : Time} (h : SameWindow s c u) (lvl : Level) :
    tickChannel c lvl (s.setChanStamp c u) = (tickChannel c lvl s).setChanStamp c u := by
  rw [tickChannel_spec, tickChannel_spec, confirms_setChanStamp h, setChanStamp_chan_state, stateAfter_setChanStamp h,
    setChanState_setChanStamp, count_setChanStamp]
  split <;> rfl

/-- A channel's part of a tick never reads the other channel's stamp. -/
theorem tickChannel_setChanStamp_other (s : State) {c c' : Chan} (u : Time) (lvl : Level) (h : c' ≠ c) :
    tickChannel c' lvl (s.setChanStamp c u) = (tickChannel c' lvl s).setChanStamp c u := by
  have hchan := setChanStamp_chan_other s u h
  have hconf : confirms (s.setChanStamp c u) c' lvl = confirms s c' lvl := by
    simp only [confirms, hchan, setChanStamp_cfg, setChanStamp_now]
  rw [tickChannel_spec, tickChannel_spec, hconf, hchan,
    windowClosed_congr (setChanStamp_cfg ..) (setChanStamp_now ..) hchan, setChanState_setChanStamp, count_setChanStamp]
  split <;> rfl

theorem afterTick_setChanStamp {s : State} {c : Chan} {u : Time} (h : SameWindow s c u) (lv : Chan → Level) :
    afterTick lv (s.setChanStamp c u) = (afterTick lv s).setChanStamp c u := by
  rw [afterTick, afterTick, ← blinkStep_setChanStamp]
  cases c with
  | A => rw [tickChannel_setChanStamp_self h, tickChannel_setChanStamp_other _ _ _ (by decide)]
  | B =>
    have hB : SameWindow (tickChannel .A (lv .A) s) .B u :=
      h.congr (tickChannel_cfg ..) (tickChannel_now ..) (tickChannel_chan_other _ _ (by decide))
    rw [tickChannel_setChanStamp_other _ _ _ (by decide), tickChannel_setChanStamp_self hB]

/-- An EDGE reads no stamp: another one stays, or the press edge writes over it. -/
theorem execEdge_setChanStamp {ch : Chan} {lvl : Level} {s t : State} (c : Chan) (u : Time)
    (h : execEdge ch lvl s = .next t) : ∃ v, execEdge ch lvl (s.setChanStamp c u) = .next (t.setChanStamp c v) := by
  have hstate := setChanStamp_chan_state s c ch u
  obtain ⟨hrel, hlow, he⟩ | ⟨hno, he⟩ := execEdge_cases ch lvl s <;> cases he.symm.trans h
  · have hopen : execEdge ch lvl (s.setChanStamp c u) =
        .next ((s.setChanStamp c u).setChan ch { state := .debouncing, t := s.now }) := by
      simp [execEdge, pressed, hstate, hrel, hlow]
    rw [hopen]
    by_cases hc : ch = c
    · subst hc
      exact ⟨s.now, by simp [State.setChanStamp]⟩
    · exact ⟨u, by rw [setChan_setChanStamp_other s u _ hc]⟩
  · exact ⟨u, by simp only [execEdge, pressed, decide_eq_true_eq, hstate, if_neg hno]⟩

/-- A command takes another stamp along, but for a TICK whose window it puts on the other side. -/
theorem exec_setChanStamp {i : Instr} {s t : State} (c : Chan) (u : Time)
    (hwin : ∀ lv : Chan → Level, i = .tick (lv .A) (lv .B) → SameWindow s c u) (h : exec i s = .next t) :
    ∃ v, exec i (s.setChanStamp c u) = .next (t.setChanStamp c v) := by
  cases i with
  | edge ch lvl => exact execEdge_setChanStamp c u h
  | tick lvlA lvlB =>
    cases h
    have hlv := hwin (tickLevels lvlA lvlB) rfl
    exact ⟨u, congrArg _ (afterTick_setChanStamp hlv (tickLevels lvlA lvlB))⟩
  | blinken en =>
    cases h
    exact ⟨u, by cases c <;> rfl⟩
  | render =>
    cases h
    exact ⟨u, by rw [exec_render, showDigit_setChanStamp]⟩

/-- A step other than a TICK takes another stamp along, or writes over it. -/
theorem step_setChanStamp {s t : State} (c : Chan) (u : Time) (hno : ∀ lvlA lvlB, ¬NextIsCommand s (.tick lvlA lvlB))
    (h : step s = .next t) : ∃ v, step (s.setChanStamp c u) = .next (t.setChanStamp c v) := by
  have hinputs := setChanStamp_inputs s c u
  obtain ⟨hi, rfl⟩ | ⟨n, rest, hi, rfl⟩ | ⟨w, n, rest, i, hi, hd, he⟩ | ⟨w, n, rest, why, hi, hd, rfl⟩ := step_cases s t h
  · exact ⟨u, step_idle (hinputs.trans hi)⟩
  · refine ⟨timeValue s.cfg.timeBits n, ?_⟩
    rw [step_reset (hinputs.trans hi), accept_setChanStamp, applyReset_setChanStamp, setChanStamp_cfg]
    cases c <;> rfl
  · have hwin : ∀ lv : Chan → Level, i = .tick (lv .A) (lv .B) → SameWindow (accept (.cmd w n) rest s) c u :=
      fun lv hl => absurd ⟨w, n, rest, hi, hl ▸ hd⟩ (hno (lv .A) (lv .B))
    rw [step_legal (hinputs.trans hi) hd, accept_setChanStamp]
    exact exec_setChanStamp c u hwin he
  · exact ⟨u, by rw [step_illegal (hinputs.trans hi) hd, accept_setChanStamp, illegal_setChanStamp]⟩

/-- Settles O6: the writers of a stamp by `step_chan`; its readers by the commutation of each command and step with a
change of the stamp. -/
theorem stampWrittenByPressEdgeAndReadInWindowOnly : Obligations.StampWrittenByPressEdgeAndReadInWindowOnly := by
  refine ⟨?written, ?outsideWindow, ?noTick, ?tick⟩
  case written =>
    intro s t c h hne
    obtain hsame | ⟨hreset, _⟩ | hopen | ⟨lv, closed, _, htick⟩ := step_chan c h
    · exact absurd (congrArg ButtonChannel.t hsame) hne
    · exact .inl hreset
    · exact .inr hopen
    · exact absurd (congrArg ButtonChannel.t htick) hne
  case outsideWindow =>
    intro i s t₁ t₂ c u hst h₁ h₂
    obtain ⟨v, hv⟩ := exec_setChanStamp c u (fun _ _ hdeb => absurd hdeb hst) h₁
    exact ⟨v, Host.Outcome.next.inj (h₂.symm.trans hv)⟩
  case noTick =>
    intro s t₁ t₂ c u hno h₁ h₂
    obtain ⟨v, hv⟩ := step_setChanStamp c u hno h₁
    exact ⟨v, Host.Outcome.next.inj (h₂.symm.trans hv)⟩
  case tick =>
    intro s t₁ t₂ c u lv hside h₁ h₂
    rw [exec_tick] at h₁ h₂
    cases h₁
    cases h₂
    exact afterTick_setChanStamp (fun _ => hside) lv

end Sys2Proof.Machine

/-! Elapsed time, and the codes and ports that show the state (10_state.md R32, R35, R39, R45, R47). -/

namespace Sys2Proof.Machine

/-- Settles O1: over the integers the bit-vector difference `2^w - t + now` is `now - t` with one modulus added. -/
theorem elapsedIsModularSubtraction : Obligations.ElapsedIsModularSubtraction := by
  intro w now t
  have hle : t.toNat ≤ 2 ^ w := t.isLt.le
  have hdiff : ((2 ^ w - t.toNat + now.toNat : Nat) : Int) = (now.toNat : Int) - t.toNat + (2 ^ w : Nat) := by omega
  calc elapsed w now.toNat t.toNat
      = (((2 ^ w - t.toNat + now.toNat : Nat) : Int) % (2 ^ w : Nat)).toNat := by
        rw [hdiff, Int.add_emod_right, elapsed]
    _ = (2 ^ w - t.toNat + now.toNat) % 2 ^ w := by rw [← Int.natCast_mod, Int.toNat_natCast]
    _ = (now - t).toNat := (BitVec.toNat_sub ..).symm

/-- The four-bit code of the digit has the digit's value: every digit fits in four bits. -/
theorem digitOut_toNat (s : State) : (digitOut s).toNat = s.digit.val := by
  have hlt := s.digit.isLt
  rw [digitOut, BitVec.toNat_ofNat]
  omega

/-- A four-bit code stands for the digit of its value. -/
theorem digitOfCode_eq_some_iff (v : BitVec 4) (d : Digit) : digitOfCode v = some d ↔ v.toNat = d.val := by
  rw [digitOfCode]
  split
  · simp [Fin.ext_iff]
  · have hlt := d.isLt
    simp only [reduceCtorEq, false_iff]
    omega

theorem digitOfCode_eq_none {v : BitVec 4} (h : 10 ≤ v.toNat) : digitOfCode v = none := by
  rw [digitOfCode, dif_neg (Nat.not_lt.mpr h)]

/-- A two-bit code stands for the channel state whose code it is. -/
theorem btnOfCode_eq_some_iff (v : BitVec 2) (b : BtnState) : btnOfCode v = some b ↔ v = btnCode b := by
  cases b <;> revert v <;> decide

/-- Settles O7, from the codes' equations. -/
theorem stateAndDigitCodes : Obligations.StateAndDigitCodes :=
  ⟨rfl, rfl, rfl, digitOut_toNat, digitOfCode_eq_some_iff, btnOfCode_eq_some_iff, by decide,
    fun s => (digitOfCode_eq_some_iff _ _).mpr (digitOut_toNat s), fun _ => digitOfCode_eq_none⟩

/-- The three channels of the indicator together are its value. -/
theorem indicator_channels (v : Rgb3) :
    BitVec.ofBool (indicatorRed v) ++ BitVec.ofBool (indicatorGreen v) ++ BitVec.ofBool (indicatorBlue v) = v := by
  revert v
  decide

/-- Settles O8: each port is its field, and the three channels make up the indicator (`indicator_channels`). -/
theorem outputPortsShowState : Obligations.OutputPortsShowState :=
  ⟨fun _ => ⟨rfl, rfl, fun _ => rfl⟩, fun v => ⟨rfl, rfl, rfl, indicator_channels v⟩, by decide, by decide, by decide⟩

end Sys2Proof.Machine

/-! The tables and layouts: the map's inverse, the pixel word, and a frame on the wire and on the bus (20_memory.md
R62, R65 to R67). -/

namespace Sys2Proof.Machine

/-- Every position on the string is the place of some cell: an injective map of [0, 24] into itself misses none. -/
theorem exists_physIndex_eq (c : Config) (p : Index) : ∃ i, physIndex c i = p.val := by
  have hinj : Function.Injective fun i : Index => (⟨physIndex c i, physIndex_lt c i⟩ : Index) :=
    fun i j hij => physIndex_injective c (Fin.mk.inj hij)
  obtain ⟨i, hi⟩ := Finite.surjective_of_injective hinj p
  exact ⟨i, congrArg Fin.val hi⟩

/-- The search of `mapInv` succeeds, so its default is never the answer. -/
theorem physIndex_mapInv (c : Config) (p : Index) : physIndex c (mapInv c p) = p.val := by
  obtain ⟨i, hi⟩ := exists_physIndex_eq c p
  rw [mapInv]
  cases hfind : (List.finRange 25).find? fun j => decide (physIndex c j = p.val) with
  | none => exact absurd (decide_eq_true hi) (List.find?_eq_none.mp hfind i (List.mem_finRange i))
  | some j =>
    have hj := List.find?_some hfind
    exact of_decide_eq_true hj

/-- Settles O14: the index found is mapped to `p` (`physIndex_mapInv`), and no other is (`physIndex_injective`). -/
theorem mapInvIsInverseOfMap : Obligations.MapInvIsInverseOfMap := by
  intro c i p
  constructor
  · rintro rfl
    exact physIndex_mapInv c p
  · intro hi
    exact physIndex_injective c ((physIndex_mapInv c p).trans hi.symm)

/-- Three bytes put together stand in bits [23:16], [15:8] and [7:0]. -/
theorem extractLsb'_append_bytes (x y z : BitVec 8) :
    (x ++ y ++ z).extractLsb' 16 8 = x ∧ (x ++ y ++ z).extractLsb' 8 8 = y ∧
      (x ++ y ++ z).extractLsb' 0 8 = z := by
  refine ⟨?_, ?_, BitVec.extractLsb'_append_eq_right⟩
  · exact (BitVec.extractLsb'_append_eq_of_le (by decide)).trans BitVec.extractLsb'_append_eq_left
  · exact (BitVec.extractLsb'_append_eq_of_le (by decide)).trans BitVec.extractLsb'_append_eq_right

/-- Settles O15: under each order the word is the three named bytes put together. -/
theorem pixelWordLayout : Obligations.PixelWordLayout := by
  intro k order first second third hnamed
  cases order <;> cases hnamed <;> exact extractLsb'_append_bytes ..

/-! ## A frame on the wire -/

@[simp] theorem length_wirePixel (px : Pixel) : (wirePixel px).length = 24 := by simp [wirePixel]

theorem getElem?_wirePixel (px : Pixel) {k : Nat} (hk : k < 24) : (wirePixel px)[k]? = some (px.getLsbD (23 - k)) := by
  simp [wirePixel, hk]

/-- Pixel words sent one after the other: bit `k` of word `p` comes after the `24p` bits of the words before it. -/
theorem getElem?_flatMap_wirePixel (pxs : List Pixel) {p k : Nat} (hp : p < pxs.length) (hk : k < 24) :
    (pxs.flatMap wirePixel)[24 * p + k]? = some (pxs[p].getLsbD (23 - k)) := by
  induction pxs generalizing p with
  | nil => exact absurd hp (Nat.not_lt_zero p)
  | cons px pxs ih =>
    rw [List.flatMap_cons]
    cases p with
    | zero =>
      rw [Nat.mul_zero, Nat.zero_add, List.getElem?_append_left (by simpa using hk)]
      exact getElem?_wirePixel px hk
    | succ p =>
      have hrest : 24 * (p + 1) + k - (wirePixel px).length = 24 * p + k := by rw [length_wirePixel]; omega
      rw [List.getElem?_append_right (by rw [length_wirePixel]; omega), hrest]
      exact ih (Nat.lt_of_succ_lt_succ hp)

/-- Settles O16: 25 words of 24 bits, each in its place (`getElem?_flatMap_wirePixel`). -/
theorem wireOrderOfFrame : Obligations.WireOrderOfFrame := by
  intro f
  constructor
  · simp [wireFrame, List.length_flatMap]
  · intro p k
    exact getElem?_flatMap_wirePixel f.toList (by simp) k.isLt

/-! ## A frame on the 600-bit bus -/

/-- Pixel words on the bus, the first in the lowest 24 bits. -/
def busOf (pxs : List Pixel) : BitVec 600 := pxs.foldr (fun px acc => (acc <<< 24) ||| px.setWidth 600) 0#600

theorem flatFrame_eq_busOf (f : Frame) : flatFrame f = busOf f.toList := rfl

theorem busOf_cons (px : Pixel) (pxs : List Pixel) :
    busOf (px :: pxs) = (busOf pxs <<< 24) ||| px.setWidth 600 := rfl

/-- The first word's bits are the lowest ones. -/
theorem getLsbD_busOf_cons_low (px : Pixel) (pxs : List Pixel) {k : Nat} (hk : k < 24) :
    (busOf (px :: pxs)).getLsbD k = px.getLsbD k := by
  have hbus : k < 600 := by omega
  simp [busOf_cons, hk, hbus]

/-- The words after the first stand 24 bits higher, on the 25 places that the bus has. -/
theorem getLsbD_busOf_cons_high (px : Pixel) (pxs : List Pixel) {k : Nat} (hk : 24 + k < 600) :
    (busOf (px :: pxs)).getLsbD (24 + k) = (busOf pxs).getLsbD k := by
  have hnone : px.getLsbD (24 + k) = false := BitVec.getLsbD_of_ge _ _ (Nat.le_add_right 24 k)
  rw [busOf_cons, BitVec.getLsbD_or, BitVec.getLsbD_shiftLeft, BitVec.getLsbD_setWidth, hnone, Nat.add_sub_cancel_left]
  simp only [hk, Nat.not_lt.mpr (Nat.le_add_right 24 k), decide_true, decide_false, Bool.not_false, Bool.true_and,
    Bool.and_false, Bool.or_false]

/-- Bit `k` of the word in place `p` is bit `24p + k` of the bus. -/
theorem getLsbD_busOf (pxs : List Pixel) {p k : Nat} (hp : p < pxs.length) (hk : k < 24) (hbus : p < 25) :
    (busOf pxs).getLsbD (24 * p + k) = pxs[p].getLsbD k := by
  induction pxs generalizing p with
  | nil => exact absurd hp (Nat.not_lt_zero p)
  | cons px pxs ih =>
    cases p with
    | zero =>
      rw [Nat.mul_zero, Nat.zero_add]
      exact getLsbD_busOf_cons_low px pxs hk
    | succ p =>
      have hplace : 24 * (p + 1) + k = 24 + (24 * p + k) := by omega
      rw [hplace, getLsbD_busOf_cons_high px pxs (by omega)]
      exact ih (Nat.lt_of_succ_lt_succ hp) (by omega)

/-- Settles O17, bit by bit (`getLsbD_busOf`). -/
theorem flatFrameSlices : Obligations.FlatFrameSlices := by
  intro f p
  refine BitVec.eq_of_getLsbD_eq fun k hk => ?_
  rw [flatFrame_eq_busOf, BitVec.getLsbD_extractLsb', decide_eq_true hk, Bool.true_and]
  exact getLsbD_busOf f.toList (by simp) hk p.isLt

end Sys2Proof.Machine

/-! The command words: the fields of an encoded word, a word from its fields, and what the decoder answers
(30_encoding.md R91 to R98, R100). -/

namespace Sys2Proof

/-! ## Operand bits -/

@[simp] theorem chanOfBit_chanBit (c : Chan) : chanOfBit (chanBit c) = c := by cases c <;> rfl
@[simp] theorem chanBit_chanOfBit (b : Bool) : chanBit (chanOfBit b) = b := by cases b <;> rfl
@[simp] theorem levelOfBit_levelBit (l : Level) : levelOfBit (levelBit l) = l := by cases l <;> rfl
@[simp] theorem levelBit_levelOfBit (b : Bool) : levelBit (levelOfBit b) = b := by cases b <;> rfl

/-! ## The fields of a command word -/

@[simp] theorem opField_commandWord (op : BitVec 4) (a b : Bool) : opField (commandWord op a b) = op := by
  rw [opField, commandWord, BitVec.extractLsb'_append_eq_of_le (by decide),
    BitVec.extractLsb'_append_eq_of_le (by decide)]
  exact BitVec.extractLsb'_append_eq_left

@[simp] theorem aBit_commandWord (op : BitVec 4) (a b : Bool) : aBit (commandWord op a b) = a := by
  rw [aBit, commandWord, BitVec.getLsbD_append, BitVec.getLsbD_append, BitVec.getLsbD_append]
  simp

@[simp] theorem bBit_commandWord (op : BitVec 4) (a b : Bool) : bBit (commandWord op a b) = b := by
  rw [bBit, commandWord, BitVec.getLsbD_append, BitVec.getLsbD_append]
  simp

@[simp] theorem rsvField_commandWord (op : BitVec 4) (a b : Bool) : rsvField (commandWord op a b) = 0#10 :=
  BitVec.extractLsb'_append_eq_right

/-- One bit of a word is its slice of length 1. -/
theorem ofBool_getLsbD {n : Nat} (x : BitVec n) (k : Nat) : BitVec.ofBool (x.getLsbD k) = x.extractLsb' k 1 := by
  refine BitVec.eq_of_getLsbD_eq fun j hj => ?_
  have hzero : j = 0 := by omega
  simp [hzero]

/-- The four fields cover the word: with `rsv = 0` the other three determine it (30_encoding.md R91). -/
theorem commandWord_fields {w : Word} (hrsv : rsvField w = 0#10) :
    commandWord (opField w) (aBit w) (bBit w) = w := by
  calc commandWord (opField w) (aBit w) (bBit w)
      = w.extractLsb' 12 4 ++ w.extractLsb' 11 1 ++ w.extractLsb' 10 1 ++ w.extractLsb' 0 10 := by
        rw [commandWord, ← hrsv, aBit, bBit, ofBool_getLsbD, ofBool_getLsbD, opField, rsvField]
    _ = w.extractLsb' 0 16 := by
        rw [BitVec.extractLsb'_append_extractLsb'_eq_extractLsb' (show 12 = 11 + 1 from rfl),
          BitVec.extractLsb'_append_extractLsb'_eq_extractLsb' (show 11 = 10 + 1 from rfl),
          BitVec.extractLsb'_append_extractLsb'_eq_extractLsb' (show 10 = 0 + 10 from rfl)]
    _ = w := BitVec.extractLsb'_eq_self

/-! ## What the decoder answers -/

theorem decode_encode (i : Instr) : decode (encode i) = .legal i := by
  cases i with
  | edge ch lvl => simp [encode, decode]
  | tick lvlA lvlB => simp [encode, decode]
  | blinken en => simp [encode, decode]
  | render => simp [encode, decode]

theorem decode_of_encode_eq {w : Word} {i : Instr} (h : encode i = w) : decode w = .legal i :=
  h ▸ decode_encode i

/-- The words that R98 lists. -/
def IllegalPattern (w : Word) : Prop :=
  opField w = 0x0#4 ∨ 0x5 ≤ (opField w).toNat ∨ rsvField w ≠ 0#10 ∨
    (opField w = 0x3#4 ∧ bBit w = true) ∨ (opField w = 0x4#4 ∧ (aBit w = true ∨ bBit w = true))

/-- No command's word is listed in R98. -/
theorem not_illegalPattern_encode (i : Instr) : ¬ IllegalPattern (encode i) := by
  cases i with
  | edge ch lvl => simp [IllegalPattern, encode]
  | tick lvlA lvlB => simp [IllegalPattern, encode]
  | blinken en => simp [IllegalPattern, encode]
  | render => simp [IllegalPattern, encode]

/-- An operation that is none of the four is 0x0 or at least 0x5. -/
theorem op_eq_zero_or_five_le {op : BitVec 4} (h1 : op ≠ 0x1#4) (h2 : op ≠ 0x2#4) (h3 : op ≠ 0x3#4)
    (h4 : op ≠ 0x4#4) : op = 0x0#4 ∨ 0x5 ≤ op.toNat := by
  bv_omega

/-- Along the tests of R97: a word is the word of some command, or it is Illegal and R98 lists it. -/
theorem encode_or_illegal (w : Word) :
    (∃ i, encode i = w) ∨ (∃ why, decode w = .illegal why ∧ IllegalPattern w) := by
  by_cases hrsv : rsvField w = 0#10
  case neg => exact .inr ⟨.reservedBits, if_pos hrsv, .inr (.inr (.inl hrsv))⟩
  have hw := commandWord_fields hrsv
  by_cases h1 : opField w = 0x1#4
  · exact .inl ⟨.edge (chanOfBit (aBit w)) (levelOfBit (bBit w)), by simp [encode, ← h1, hw]⟩
  by_cases h2 : opField w = 0x2#4
  · exact .inl ⟨.tick (levelOfBit (aBit w)) (levelOfBit (bBit w)), by simp [encode, ← h2, hw]⟩
  by_cases h3 : opField w = 0x3#4
  · cases hb : bBit w with
    | false => exact .inl ⟨.blinken (aBit w), by rw [encode, ← h3, ← hb, hw]⟩
    | true => exact .inr ⟨.blinkenOperand, by simp [decode, hrsv, h3, hb], by simp [IllegalPattern, h3, hb]⟩
  by_cases h4 : opField w = 0x4#4
  · by_cases hab : aBit w = true ∨ bBit w = true
    · exact .inr ⟨.renderOperand, by simp [decode, hrsv, h4, hab], by simp [IllegalPattern, h4, hab]⟩
    · obtain ⟨ha, hb⟩ : aBit w = false ∧ bBit w = false := by simpa using hab
      rw [h4, ha, hb] at hw
      exact .inl ⟨.render, hw⟩
  · have hop := op_eq_zero_or_five_le h1 h2 h3 h4
    exact .inr ⟨.unknownOp, by simp [decode, hrsv, h1, h2, h3, h4], hop.imp_right .inl⟩

/-- Settles O18: `decode_encode`, and by `encode_or_illegal` the decoder answers a command only for a command's word. -/
theorem decodeEncodeAgree : Obligations.DecodeEncodeAgree := by
  refine ⟨fun i _ => decode_encode i, fun w i hi => ?_⟩
  obtain ⟨j, rfl⟩ | ⟨why, hwhy, -⟩ := encode_or_illegal w
  · cases hi.symm.trans (decode_encode j)
    rfl
  · cases hi.symm.trans hwhy

/-- Settles O19: a word that is no command's word is Illegal and listed (`encode_or_illegal`), and a command's word is
neither (`decode_encode`, `not_illegalPattern_encode`). -/
theorem illegalWordsExactly : Obligations.IllegalWordsExactly := by
  intro w
  obtain ⟨i, rfl⟩ | ⟨why, hwhy, hpat⟩ := encode_or_illegal w
  · refine ⟨fun ⟨why, hwhy⟩ => ?_, fun hpat => absurd hpat (not_illegalPattern_encode i)⟩
    cases hwhy.symm.trans (decode_encode i)
  · exact ⟨fun _ => hpat, fun _ => ⟨why, hwhy⟩⟩

/-- Settles O21: each sample word is its command's word, and decodes by `decode_encode`. -/
theorem sampleWordsDecode : Obligations.SampleWordsDecode :=
  ⟨decode_of_encode_eq rfl, decode_of_encode_eq rfl, decode_of_encode_eq rfl, decode_of_encode_eq rfl,
    decode_of_encode_eq rfl, decode_of_encode_eq rfl⟩

/-- Settles O22: each pseudo-instruction is a command, whose word is computed from its fields. -/
theorem pseudoInstructionWords : Obligations.PseudoInstructionWords :=
  ⟨rfl, rfl, rfl, rfl, rfl, rfl, rfl⟩

end Sys2Proof

/-! EDGE: it opens the window of its channel or is ignored, and compares no time (40_edge_capture.md). -/

namespace Sys2Proof.Machine

/-! ## What an EDGE answers -/

/-- A press edge of a `Released` channel opens its window (R120). -/
theorem exec_edge_opens {ch : Chan} {s : State} (hrel : (s.chan ch).state = .released) :
    exec (.edge ch .low) s = .next (s.setChan ch { state := .debouncing, t := s.now }) := by
  obtain ⟨_, _, he⟩ | ⟨hno, _⟩ := execEdge_cases ch .low s
  · exact he
  · exact absurd ⟨hrel, rfl⟩ hno

/-- Every other edge is ignored (R122). -/
theorem exec_edge_ignored {ch : Chan} {lvl : Level} {s : State}
    (hno : ¬((s.chan ch).state = .released ∧ lvl = .low)) : exec (.edge ch lvl) s = .next s := by
  obtain ⟨hrel, hlow, _⟩ | ⟨_, he⟩ := execEdge_cases ch lvl s
  · exact absurd ⟨hrel, hlow⟩ hno
  · exact he

/-- Settles O23: the two cases of an EDGE are the two branches. -/
theorem edgeOpensWindowOrIsIgnored : Obligations.EdgeOpensWindowOrIsIgnored := by
  intro ch lvl s
  split
  next hopen =>
    obtain ⟨hrel, rfl⟩ := hopen
    exact exec_edge_opens hrel
  next hno => exact exec_edge_ignored hno

/-! ## The frame of an EDGE, and what its channel becomes -/

/-- An EDGE is a write of its channel's record, chosen by the channel's state and the level alone. -/
theorem exec_edge_eq_setChan {ch : Chan} {lvl : Level} {s t : State} (h : exec (.edge ch lvl) s = .next t) :
    t = s.setChan ch
      (if (s.chan ch).state = .released ∧ lvl = .low then { state := .debouncing, t := s.now } else s.chan ch) := by
  cases h.symm.trans (edgeOpensWindowOrIsIgnored ch lvl s)
  split
  · rfl
  · exact (setChan_chan_self_eq s ch).symm

/-- Settles O24: the frame of a record write (`exec_edge_eq_setChan`), and the choice of the record, which two states
that agree in the channel's state make alike. -/
theorem edgeTouchesOnlyItsChannel : Obligations.EdgeTouchesOnlyItsChannel := by
  intro ch lvl s t h
  obtain rfl := exec_edge_eq_setChan h
  refine ⟨fun c hc => setChan_chan_other _ _ hc, setChan_digit .., setChan_blink .., setChan_indicator .., setChan_fb ..,
    setChan_errIllegal .., setChan_events .., setChan_cfg .., setChan_now .., setChan_inputs .., ?_⟩
  intro s₂ t₂ hstate h₂
  obtain rfl := exec_edge_eq_setChan h₂
  rw [setChan_chan_self, setChan_chan_self, hstate]
  split
  · exact ⟨rfl, .inl ⟨rfl, rfl⟩⟩
  · exact ⟨hstate, .inr ⟨rfl, rfl⟩⟩

/-! ## Repeated edges -/

/-- A channel's record does not depend on `now`. -/
theorem chan_withNow (s : State) (n : Time) (c : Chan) : ({ s with now := n } : State).chan c = s.chan c := by
  cases c <;> rfl

/-- Settles O25: an edge on a channel that is not `Released` is ignored, and a press edge leaves its channel
`Debouncing`, at whatever time the next edge comes. -/
theorem repeatedEdgeIsIdempotent : Obligations.RepeatedEdgeIsIdempotent := by
  refine ⟨fun ch lvl s hst => exec_edge_ignored fun ⟨hrel, _⟩ => hst hrel, ?_⟩
  intro ch s t later hrel h
  cases h.symm.trans (exec_edge_opens hrel)
  have hchan := setChan_chan_self s ch { state := .debouncing, t := s.now }
  refine ⟨exec_edge_ignored fun ⟨hstill, _⟩ => ?_, by rw [hchan]⟩
  rw [chan_withNow, hchan] at hstill
  cases hstill

end Sys2Proof.Machine

/-! The debounce step seen through TICK, and the presses that ticks, steps and runs show (41_debounce.md). -/

namespace Sys2Proof.Machine

/-! ## The presses shown between two states -/

/-- Between `s` and `t`, events were appended, and `n` of them are presses of channel `c`. -/
def ShowsPresses (c : Chan) (n : Nat) (s t : State) : Prop :=
  ∃ evs, t.events = s.events ++ evs ∧ presses c evs = n

theorem ShowsPresses.of_events_eq (c : Chan) {s t : State} (h : t.events = s.events) : ShowsPresses c 0 s t :=
  ⟨[], by rw [h, List.append_nil], rfl⟩

theorem ShowsPresses.trans {c : Chan} {m n : Nat} {s t u : State} (h₁ : ShowsPresses c m s t)
    (h₂ : ShowsPresses c n t u) : ShowsPresses c (m + n) s u := by
  obtain ⟨evs₁, happ₁, rfl⟩ := h₁
  obtain ⟨evs₂, happ₂, rfl⟩ := h₂
  exact ⟨evs₁ ++ evs₂, by rw [happ₂, happ₁, List.append_assoc], List.countP_append⟩

/-- What was shown depends on the events of the first state alone. -/
theorem ShowsPresses.congr_left {c : Chan} {n : Nat} {s s' t : State} (h : ShowsPresses c n s t)
    (hev : s.events = s'.events) : ShowsPresses c n s' t := by
  rwa [ShowsPresses, ← hev]

theorem showDigit_showsPresses (c : Chan) (s : State) : ShowsPresses c 0 s (showDigit s) :=
  ⟨_, showDigit_events s, rfl⟩

theorem count_showsPresses_self (c : Chan) (s : State) : ShowsPresses c 1 s (count c s) :=
  ⟨_, count_events c s, by simp [presses, isPress]⟩

theorem count_showsPresses_other (s : State) {c c' : Chan} (h : c' ≠ c) : ShowsPresses c' 0 s (count c s) :=
  ⟨_, count_events c s, by simp [presses, isPress, h.symm]⟩

theorem blinkStep_showsPresses (c : Chan) (s : State) : ShowsPresses c 0 s (blinkStep s) := by
  obtain ⟨_, htoggle⟩ | ⟨_, hsame⟩ := blinkStep_cases s
  · rw [htoggle]
    exact ⟨_, rfl, rfl⟩
  · rw [hsame]
    exact .of_events_eq c rfl

/-- A channel's part of a tick shows a press of the channel exactly if it confirms one. -/
theorem tickChannel_showsPresses_self (c : Chan) (lvl : Level) (s : State) :
    ShowsPresses c (confirms s c lvl).toNat s (tickChannel c lvl s) := by
  rw [tickChannel_spec]
  cases confirms s c lvl with
  | false => exact .of_events_eq c (setChanState_events ..)
  | true => exact (count_showsPresses_self c _).congr_left (setChanState_events ..)

/-- A channel's part of a tick shows no press of the other channel. -/
theorem tickChannel_showsPresses_other (lvl : Level) (s : State) {c c' : Chan} (h : c' ≠ c) :
    ShowsPresses c' 0 s (tickChannel c lvl s) := by
  rw [tickChannel_spec]
  split
  · exact (count_showsPresses_other _ h).congr_left (setChanState_events ..)
  · exact .of_events_eq c' (setChanState_events ..)

/-- Whether a tick confirms a press depends on the configuration, `now` and the channel's own record. -/
theorem confirms_congr {c : Chan} {s t : State} (lvl : Level) (hcfg : t.cfg = s.cfg) (hnow : t.now = s.now)
    (hchan : t.chan c = s.chan c) : confirms t c lvl = confirms s c lvl := by
  rw [confirms, confirms, hcfg, hnow, hchan]

/-- A TICK shows one press of a channel if it confirms one, and none otherwise. -/
theorem afterTick_showsPresses (c : Chan) (lv : Chan → Level) (s : State) :
    ShowsPresses c (confirms s c (lv c)).toNat s (afterTick lv s) := by
  have hblink := blinkStep_showsPresses c (tickChannel .B (lv .B) (tickChannel .A (lv .A) s))
  cases c with
  | A =>
    have hA := tickChannel_showsPresses_self .A (lv .A) s
    have hB := tickChannel_showsPresses_other (c := .B) (c' := .A) (lv .B) (tickChannel .A (lv .A) s) (by decide)
    exact (hA.trans hB).trans hblink
  | B =>
    have hchan : (tickChannel .A (lv .A) s).chan .B = s.chan .B := tickChannel_chan_other _ _ (by decide)
    have hA := tickChannel_showsPresses_other (c := .A) (c' := .B) (lv .A) s (by decide)
    have hB := tickChannel_showsPresses_self .B (lv .B) (tickChannel .A (lv .A) s)
    rw [confirms_congr _ (tickChannel_cfg ..) (tickChannel_now ..) hchan] at hB
    simpa only [afterTick, Nat.zero_add, Nat.add_zero] using (hA.trans hB).trans hblink

theorem afterTick_shows_one_press {c : Chan} {lv : Chan → Level} {s : State} (h : confirms s c (lv c) = true) :
    ShowsPresses c 1 s (afterTick lv s) := by
  simpa only [h, Bool.toNat_true] using afterTick_showsPresses c lv s

theorem afterTick_shows_no_press {c : Chan} {lv : Chan → Level} {s : State} (h : ¬confirms s c (lv c) = true) :
    ShowsPresses c 0 s (afterTick lv s) := by
  simpa only [Bool.eq_false_of_not_eq_true h, Bool.toNat_false] using afterTick_showsPresses c lv s

/-- Only a `Debouncing` channel is confirmed. -/
theorem not_confirms_of_not_debouncing {c : Chan} {s : State} (lvl : Level) (h : (s.chan c).state ≠ .debouncing) :
    ¬confirms s c lvl = true := by
  rw [confirms_iff]
  exact fun ⟨hdeb, _, _⟩ => h hdeb

/-- The third row of the table of R141: the tick that confirms a press makes the channel `Pressed`. -/
theorem afterTick_pressed_of_confirms {c : Chan} {lv : Chan → Level} {s : State} (h : confirms s c (lv c) = true) :
    ((afterTick lv s).chan c).state = .pressed := by
  obtain ⟨hdeb, hclosed, hlow⟩ := (confirms_iff ..).mp h
  rw [afterTick_chan, hdeb, (windowClosed_iff c s).mpr hclosed, hlow]
  rfl

/-- Settles O26: at the boundary the tick confirms, and the channel it leaves `Pressed` is not confirmed again. -/
theorem boundaryTickConfirmsExactlyOnce : Obligations.BoundaryTickConfirmsExactlyOnce := by
  intro s c lv hdeb hboundary hlow
  have hconf : confirms s c (lv c) = true := (confirms_iff ..).mpr ⟨hdeb, hboundary.ge, hlow⟩
  have hpressed := afterTick_pressed_of_confirms hconf
  refine ⟨_, exec_tick lv s, hpressed, afterTick_shows_one_press hconf, fun later lv' => ⟨_, exec_tick lv' _, ?_⟩⟩
  have hnot : (({ afterTick lv s with now := later } : State).chan c).state ≠ .debouncing := by
    rw [chan_withNow, hpressed]
    decide
  exact afterTick_shows_no_press (not_confirms_of_not_debouncing _ hnot)

/-- Settles O27: the fourth row of the table of R141, which confirms nothing since the level is high. -/
theorem bounceIsRejected : Obligations.BounceIsRejected := by
  intro s c lv hdeb hclosed hhigh
  have hnot : ¬confirms s c (lv c) = true := by
    rw [confirms_iff, hhigh]
    rintro ⟨_, _, ⟨⟩⟩
  refine ⟨_, exec_tick lv s, ?_, afterTick_shows_no_press hnot⟩
  rw [afterTick_chan, hdeb, (windowClosed_iff c s).mpr hclosed, hhigh]
  rfl

/-! ## An open window -/

/-- A channel in its window is left alone by its part of a tick, whatever the level. -/
theorem tickChannel_eq_self_of_open {c : Chan} {s : State} (lvl : Level) (hdeb : (s.chan c).state = .debouncing)
    (hopen : windowClosed c s = false) : tickChannel c lvl s = s := by
  have hnot : ¬confirms s c lvl = true := by
    rw [confirms_iff, ← windowClosed_iff, hopen]
    rintro ⟨_, ⟨⟩, _⟩
  have hstay : stateAfter (s.chan c).state (windowClosed c s) (pressed lvl) = .debouncing := by rw [hdeb, hopen]; rfl
  rw [tickChannel_spec, if_neg hnot, hstay, setChanState_self_eq s c _ hdeb]

/-- With the window of `c` open, a TICK does not read the level of `c`. -/
theorem afterTick_congr_of_open {c : Chan} {lv lv' : Chan → Level} {s : State} (hdeb : (s.chan c).state = .debouncing)
    (hopen : windowClosed c s = false) (hlv : ∀ c', c' ≠ c → lv' c' = lv c') : afterTick lv' s = afterTick lv s := by
  rw [afterTick, afterTick]
  cases c with
  | A =>
    rw [tickChannel_eq_self_of_open _ hdeb hopen, tickChannel_eq_self_of_open _ hdeb hopen, hlv .B (by decide)]
  | B =>
    have hchan : (tickChannel .A (lv .A) s).chan .B = s.chan .B := tickChannel_chan_other _ _ (by decide)
    have hdebB : ((tickChannel .A (lv .A) s).chan .B).state = .debouncing := by rw [hchan, hdeb]
    have hopenB : windowClosed .B (tickChannel .A (lv .A) s) = false :=
      (windowClosed_congr (tickChannel_cfg ..) (tickChannel_now ..) hchan).trans hopen
    rw [hlv .A (by decide), tickChannel_eq_self_of_open _ hdebB hopenB, tickChannel_eq_self_of_open _ hdebB hopenB]

/-- Settles O28: `afterTick_congr_of_open`, and the second row of the table of R141. -/
theorem openWindowIgnoresLevel : Obligations.OpenWindowIgnoresLevel := by
  intro s c lv lv' hdeb hlt hlv
  have hopen : windowClosed c s = false := decide_eq_false (Nat.not_le.mpr hlt)
  refine ⟨congrArg _ (afterTick_congr_of_open hdeb hopen hlv), _, exec_tick lv s, ?_⟩
  calc (afterTick lv s).chan c = { state := .debouncing, t := (s.chan c).t } := by
        rw [afterTick_chan, hdeb, hopen]; rfl
    _ = s.chan c := by rw [← hdeb]

/-! ## A channel that is not in its window -/

/-- The first and the last two rows of the table of R141, in which the time is not read. -/
theorem stateAfter_of_not_debouncing {b : BtnState} (closed : Bool) (lvl : Level) (h : b ≠ .debouncing) :
    stateAfter b closed (pressed lvl) = if b = .pressed ∧ lvl = .low then .pressed else .released := by
  cases b with
  | released => rfl
  | debouncing => exact absurd rfl h
  | pressed => cases lvl <;> rfl

/-- Settles O29: the rows of the table without `Debouncing`, in which nothing is confirmed. -/
theorem tickOnReleasedOrPressedChannel : Obligations.TickOnReleasedOrPressedChannel := by
  intro s c lv hnot
  refine ⟨_, exec_tick lv s, ?_, afterTick_shows_no_press (not_confirms_of_not_debouncing _ hnot)⟩
  rw [afterTick_chan, stateAfter_of_not_debouncing _ _ hnot]

/-- Settles O30: `afterTick_chan` names all that the channel's record after a tick depends on. -/
theorem tickTreatsChannelsIndependently : Obligations.TickTreatsChannelsIndependently := by
  intro s₁ s₂ t₁ t₂ c lv₁ lv₂ hcfg hnow hchan hlv h₁ h₂
  cases h₁.symm.trans (exec_tick lv₁ s₁)
  cases h₂.symm.trans (exec_tick lv₂ s₂)
  rw [afterTick_chan, afterTick_chan, windowClosed_congr hcfg hnow hchan, hchan, hlv]
  exact ⟨rfl, rfl⟩

/-! ## The presses of a step and of a run -/

/-- The presses of a command: one of `c` as it takes `c` from `Debouncing` to `Pressed`, or none. -/
theorem exec_presses {i : Instr} {s t : State} (c : Chan) (h : exec i s = .next t) :
    ShowsPresses c 0 s t ∨
      (ShowsPresses c 1 s t ∧ (s.chan c).state = .debouncing ∧ (t.chan c).state = .pressed) := by
  obtain ⟨_, _, _, rfl⟩ | ⟨_, _, _, _, rfl⟩ | ⟨lv, _, rfl⟩ | ⟨_, _, rfl⟩ | ⟨_, rfl⟩ := exec_cases h
  · exact .inl (.of_events_eq c (setChan_events ..))
  · exact .inl (.of_events_eq c rfl)
  · by_cases hconf : confirms s c (lv c) = true
    · obtain ⟨hdeb, _, _⟩ := (confirms_iff ..).mp hconf
      exact .inr ⟨afterTick_shows_one_press hconf, hdeb, afterTick_pressed_of_confirms hconf⟩
    · exact .inl (afterTick_shows_no_press hconf)
  · exact .inl (.of_events_eq c rfl)
  · exact .inl (showDigit_showsPresses c s)

/-- The presses of a step: one of `c` as it takes `c` from `Debouncing` to `Pressed`, or none. -/
theorem step_presses {s t : State} (c : Chan) (h : step s = .next t) :
    ShowsPresses c 0 s t ∨
      (ShowsPresses c 1 s t ∧ (s.chan c).state = .debouncing ∧ (t.chan c).state = .pressed) := by
  obtain ⟨_, rfl⟩ | ⟨_, _, _, rfl⟩ | ⟨_, _, _, _, _, _, he⟩ | ⟨_, _, _, _, _, _, rfl⟩ := step_cases s t h
  · exact .inl (.of_events_eq c rfl)
  · exact .inl (.of_events_eq c rfl)
  · simpa only [ShowsPresses, accept_events, accept_chan] using exec_presses c he
  · exact .inl (.of_events_eq c rfl)

/-- 1 while channel `c` is `Debouncing`, else 0: the press that its window may still show. -/
def openWindows (c : Chan) (s : State) : Nat := if (s.chan c).state = .debouncing then 1 else 0

/-- 1 if channel `c` enters `Debouncing` between two states, else 0. -/
def entered (c : Chan) (s t : State) : Nat :=
  if (s.chan c).state ≠ .debouncing ∧ (t.chan c).state = .debouncing then 1 else 0

/-- The entries of a run are those of its first step and those of the rest. -/
theorem entries_succ {c : Chan} {k : Nat} {s t : State} (h : step s = .next t) :
    entries c (k + 1) s = entered c s t + entries c k t := by
  rw [entries, h]
  rfl

theorem entered_eq_zero {c : Chan} {s t : State} (h : (t.chan c).state ≠ .debouncing) : entered c s t = 0 :=
  if_neg fun ⟨_, hdeb⟩ => h hdeb

/-- A window is open after a step if the step opened it or found it open. -/
theorem openWindows_le (c : Chan) (s t : State) : openWindows c t ≤ entered c s t + openWindows c s := by
  by_cases hs : (s.chan c).state = .debouncing
  · simp only [openWindows, hs, if_true]
    split <;> omega
  · simp [openWindows, entered, hs]

/-- R146 for one step: a press uses up the window that it confirms. -/
theorem step_presses_le {s t : State} (c : Chan) (h : step s = .next t) :
    ∃ n, ShowsPresses c n s t ∧ n + openWindows c t ≤ entered c s t + openWindows c s := by
  obtain hnone | ⟨hone, hdeb, hpressed⟩ := step_presses c h
  · exact ⟨0, hnone, by rw [Nat.zero_add]; exact openWindows_le c s t⟩
  · exact ⟨1, hone, by simp [openWindows, hdeb, hpressed]⟩

/-- R146 for a run: the steps' bounds add up. -/
theorem run_presses_le (c : Chan) {k : Nat} {s t : State} (h : Host.Core.run Sys2Proof.core k s = .next t) :
    ∃ n, ShowsPresses c n s t ∧ n + openWindows c t ≤ entries c k s + openWindows c s := by
  induction k generalizing s with
  | zero =>
    cases h
    exact ⟨0, .of_events_eq c rfl, Nat.le_refl _⟩
  | succ k ih =>
    obtain ⟨s', hstep, hrun⟩ := run_succ h
    obtain ⟨m, hm, hmle⟩ := step_presses_le c hstep
    obtain ⟨n, hn, hnle⟩ := ih hrun
    refine ⟨m + n, hm.trans hn, ?_⟩
    rw [entries_succ hstep]
    omega

/-- Settles O31: `run_presses_le`. -/
theorem pressesAreBoundedByEntries : Obligations.PressesAreBoundedByEntries := by
  intro c k s t h
  obtain ⟨n, ⟨evs, happ, rfl⟩, hle⟩ := run_presses_le c h
  exact ⟨evs, happ, hle⟩

/-! ## A run without a press edge -/

/-- The inputs that wait hold no press edge of `c`. -/
def NoPressEdge (c : Chan) (s : State) : Prop := ∀ x ∈ s.inputs, isPressEdge c x = false

@[simp] theorem tickChannel_inputs (c : Chan) (lvl : Level) (s : State) : (tickChannel c lvl s).inputs = s.inputs := by
  rw [tickChannel_spec]; split <;> simp
@[simp] theorem blinkStep_inputs (s : State) : (blinkStep s).inputs = s.inputs := by rw [blinkStep]; split <;> simp
@[simp] theorem afterTick_inputs (lv : Chan → Level) (s : State) : (afterTick lv s).inputs = s.inputs := by
  simp [afterTick]

/-- No command touches the stream. -/
theorem exec_inputs {i : Instr} {s t : State} (h : exec i s = .next t) : t.inputs = s.inputs := by
  obtain ⟨_, _, _, rfl⟩ | ⟨_, _, _, _, rfl⟩ | ⟨_, _, rfl⟩ | ⟨_, _, rfl⟩ | ⟨_, rfl⟩ := exec_cases h <;> simp

/-- A step takes the first input off the stream, if one waits. -/
theorem step_inputs {s t : State} (h : step s = .next t) : t.inputs = s.inputs.tail := by
  obtain ⟨hi, rfl⟩ | ⟨_, _, hi, rfl⟩ | ⟨_, _, _, _, hi, _, he⟩ | ⟨_, _, _, _, hi, _, rfl⟩ := step_cases s t h
  · rw [hi]; rfl
  · rw [hi]; rfl
  · rw [exec_inputs he, hi]; rfl
  · rw [hi]; rfl

theorem step_keeps_noPressEdge {c : Chan} {s t : State} (hs : NoPressEdge c s) (h : step s = .next t) : NoPressEdge c t := by
  rw [NoPressEdge, step_inputs h]
  exact fun x hx => hs x (List.mem_of_mem_tail hx)

/-- The table of R141 never enters `Debouncing` (R145). -/
theorem stateAfter_ne_debouncing {b : BtnState} (closed low : Bool) (h : b ≠ .debouncing) :
    stateAfter b closed low ≠ .debouncing := by
  intro hafter
  have hne : stateAfter b closed low ≠ b := fun hsame => h (hsame ▸ hafter)
  obtain ⟨hdeb, _⟩ | ⟨hdeb, _⟩ | ⟨_, hrel⟩ := stateAfter_transitions hne
  · exact h hdeb
  · exact h hdeb
  · cases hafter.symm.trans hrel

/-- Only a press edge enters `Debouncing` (R145, R344). -/
theorem step_keeps_not_debouncing {c : Chan} {s t : State} (hst : (s.chan c).state ≠ .debouncing)
    (hs : NoPressEdge c s) (h : step s = .next t) : (t.chan c).state ≠ .debouncing := by
  obtain hsame | ⟨_, hrel⟩ | ⟨⟨w, n, rest, hi, hd⟩, _⟩ | ⟨lv, closed, _, htick⟩ := step_chan c h
  · rwa [hsame]
  · rw [hrel]
    decide
  · have hedge : isPressEdge c (.cmd w n) = true := decide_eq_true hd
    have hno := hs (.cmd w n) (by simp [hi])
    cases hno.symm.trans hedge
  · rw [htick]
    exact stateAfter_ne_debouncing closed _ hst

/-- Without a press edge a run enters no window. -/
theorem run_enters_no_window {c : Chan} {k : Nat} {s t : State} (hst : (s.chan c).state ≠ .debouncing)
    (hs : NoPressEdge c s) (h : Host.Core.run Sys2Proof.core k s = .next t) :
    entries c k s = 0 ∧ (t.chan c).state ≠ .debouncing := by
  induction k generalizing s with
  | zero =>
    cases h
    exact ⟨rfl, hst⟩
  | succ k ih =>
    obtain ⟨s', hstep, hrun⟩ := run_succ h
    have hst' := step_keeps_not_debouncing hst hs hstep
    obtain ⟨hentries, hend⟩ := ih hst' (step_keeps_noPressEdge hs hstep) hrun
    exact ⟨by rw [entries_succ hstep, entered_eq_zero hst', hentries], hend⟩

/-- Settles O32: with no entry and no window open at the start, the bound of R146 is 0. -/
theorem noPressWithoutPressEdge : Obligations.NoPressWithoutPressEdge := by
  intro c k s t hst hs h
  obtain ⟨hentries, hend⟩ := run_enters_no_window hst hs h
  obtain ⟨n, ⟨evs, happ, rfl⟩, hle⟩ := run_presses_le c h
  have hclosed : openWindows c s = 0 := if_neg hst
  exact ⟨hend, evs, happ, by omega⟩

end Sys2Proof.Machine

/-! The digit: what COUNT, ticks, steps and runs do to it, against the presses that they show (42_digit_counter.md). -/

namespace Sys2Proof.Machine

/-! ## INC, DEC and COUNT -/

/-- INC in the spec's numbers (R170). -/
@[simp] theorem countDigit_A_val (d : Digit) : (countDigit .A d).val = (d.val + 1) % 10 := rfl
/-- DEC in the spec's numbers (R171). -/
@[simp] theorem countDigit_B_val (d : Digit) : (countDigit .B d).val = (d.val + 9) % 10 := rfl

/-- A press of B takes back a press of A (R175). -/
theorem countDigit_B_countDigit_A (d : Digit) : countDigit .B (countDigit .A d) = d := by
  refine Fin.ext ?_
  rw [countDigit_B_val, countDigit_A_val]
  omega

theorem countDigit_A_ne (d : Digit) : countDigit .A d ≠ d := by
  intro h
  have hval : (d.val + 1) % 10 = d.val := congrArg Fin.val h
  omega

/-- Settles O33: `count_spec`, with INC for A and DEC for B. -/
theorem countChangesDigitAndShowsIt : Obligations.CountChangesDigitAndShowsIt := by
  intro c s
  refine ⟨countDigit c s.digit, ?_, count_spec c s⟩
  cases c with
  | A => exact countDigit_A_val s.digit
  | B => exact countDigit_B_val s.digit

/-! ## The digit after a TICK -/

theorem tickChannel_digit (c : Chan) (lvl : Level) (s : State) :
    (tickChannel c lvl s).digit = if confirms s c lvl then countDigit c s.digit else s.digit := by
  rw [tickChannel_spec]; split <;> simp

/-- A's part of a tick does not change whether B is confirmed. -/
theorem confirms_B_tickChannel_A (lvlA lvlB : Level) (s : State) :
    confirms (tickChannel .A lvlA s) .B lvlB = confirms s .B lvlB :=
  confirms_congr lvlB (tickChannel_cfg ..) (tickChannel_now ..) (tickChannel_chan_other _ _ (by decide))

theorem afterTick_digit_of_not_confirms {lv : Chan → Level} {s : State} (hA : ¬confirms s .A (lv .A) = true)
    (hB : ¬confirms s .B (lv .B) = true) : (afterTick lv s).digit = s.digit := by
  rw [← confirms_B_tickChannel_A (lv .A)] at hB
  rw [afterTick, blinkStep_digit, tickChannel_digit, if_neg hB, tickChannel_digit, if_neg hA]

/-! ## What can change the digit -/

/-- A command that changes the digit is a TICK that confirms a press. -/
theorem exec_digit {i : Instr} {s t : State} (h : exec i s = .next t) (hne : t.digit ≠ s.digit) :
    ∃ lv : Chan → Level, i = .tick (lv .A) (lv .B) ∧
      (confirms s .A (lv .A) = true ∨ confirms s .B (lv .B) = true) := by
  obtain ⟨_, _, _, rfl⟩ | ⟨_, _, _, _, rfl⟩ | ⟨lv, hi, rfl⟩ | ⟨_, _, rfl⟩ | ⟨_, rfl⟩ := exec_cases h
  · exact absurd (setChan_digit ..) hne
  · exact absurd rfl hne
  · refine ⟨lv, hi, ?_⟩
    by_contra hnone
    obtain ⟨hA, hB⟩ := not_or.mp hnone
    exact hne (afterTick_digit_of_not_confirms hA hB)
  · exact absurd rfl hne
  · exact absurd (showDigit_digit s) hne

/-- Settles O34: of the ways a step can end, only a reset and a command can change the digit; the command by
`exec_digit`. -/
theorem digitChangesOnlyOnConfirmedPress : Obligations.DigitChangesOnlyOnConfirmedPress := by
  intro s t h hne
  obtain ⟨_, rfl⟩ | ⟨n, rest, hi, rfl⟩ | ⟨w, n, rest, i, hi, hd, he⟩ | ⟨_, _, _, _, _, _, rfl⟩ := step_cases s t h
  · exact absurd rfl hne
  · exact .inl ⟨⟨n, rest, hi⟩, rfl⟩
  · obtain ⟨lv, rfl, hconf⟩ := exec_digit he hne
    exact .inr ⟨w, n, rest, lv .A, lv .B, hi, hd, hconf⟩
  · exact absurd rfl hne

/-! ## The digit counts the presses -/

/-- Between `s` and `t`, the digit moved by the presses shown: 1 for each of A and 9 for each of B, modulo 10 (R174). -/
def CountsPresses (s t : State) : Prop :=
  ∃ m n, ShowsPresses .A m s t ∧ ShowsPresses .B n s t ∧ t.digit.val = (s.digit.val + m + 9 * n) % 10

theorem CountsPresses.of_no_press {s t : State} (h : ∀ c, ShowsPresses c 0 s t) (hdigit : t.digit = s.digit) :
    CountsPresses s t :=
  ⟨0, 0, h .A, h .B, by rw [hdigit]; exact (Nat.mod_eq_of_lt s.digit.isLt).symm⟩

theorem CountsPresses.of_events_eq {s t : State} (hev : t.events = s.events) (hdigit : t.digit = s.digit) :
    CountsPresses s t :=
  .of_no_press (fun c => .of_events_eq c hev) hdigit

theorem CountsPresses.trans {s t u : State} (h₁ : CountsPresses s t) (h₂ : CountsPresses t u) : CountsPresses s u := by
  obtain ⟨m₁, n₁, hA₁, hB₁, hd₁⟩ := h₁
  obtain ⟨m₂, n₂, hA₂, hB₂, hd₂⟩ := h₂
  exact ⟨m₁ + m₂, n₁ + n₂, hA₁.trans hA₂, hB₁.trans hB₂, by omega⟩

/-- COUNT shows one press of its channel, and its digit moves by that press. -/
theorem count_countsPresses (c : Chan) (s : State) : CountsPresses s (count c s) := by
  cases c with
  | A => exact ⟨1, 0, count_showsPresses_self .A s, count_showsPresses_other s (by decide), by simp⟩
  | B => exact ⟨0, 1, count_showsPresses_other s (by decide), count_showsPresses_self .B s, by simp⟩

theorem tickChannel_countsPresses (c : Chan) (lvl : Level) (s : State) : CountsPresses s (tickChannel c lvl s) := by
  have hstate (v : BtnState) : CountsPresses s (s.setChanState c v) :=
    .of_events_eq (setChanState_events ..) (setChanState_digit ..)
  rw [tickChannel_spec]
  split
  · exact (hstate _).trans (count_countsPresses ..)
  · exact hstate _

theorem blinkStep_countsPresses (s : State) : CountsPresses s (blinkStep s) :=
  .of_no_press (fun c => blinkStep_showsPresses c s) (blinkStep_digit s)

theorem afterTick_countsPresses (lv : Chan → Level) (s : State) : CountsPresses s (afterTick lv s) :=
  ((tickChannel_countsPresses ..).trans (tickChannel_countsPresses ..)).trans (blinkStep_countsPresses _)

theorem exec_countsPresses {i : Instr} {s t : State} (h : exec i s = .next t) : CountsPresses s t := by
  obtain ⟨_, _, _, rfl⟩ | ⟨_, _, _, _, rfl⟩ | ⟨lv, _, rfl⟩ | ⟨_, _, rfl⟩ | ⟨_, rfl⟩ := exec_cases h
  · exact .of_events_eq (setChan_events ..) (setChan_digit ..)
  · exact .of_events_eq rfl rfl
  · exact afterTick_countsPresses lv s
  · exact .of_events_eq rfl rfl
  · exact .of_no_press (fun c => showDigit_showsPresses c s) (showDigit_digit s)

/-- The inputs that wait hold no reset. -/
def NoReset (s : State) : Prop := ∀ x ∈ s.inputs, isReset x = false

theorem step_keeps_noReset {s t : State} (hs : NoReset s) (h : step s = .next t) : NoReset t := by
  rw [NoReset, step_inputs h]
  exact fun x hx => hs x (List.mem_of_mem_tail hx)

theorem step_countsPresses {s t : State} (hs : NoReset s) (h : step s = .next t) : CountsPresses s t := by
  obtain ⟨_, rfl⟩ | ⟨n, rest, hi, _⟩ | ⟨w, n, rest, _, _, _, he⟩ | ⟨_, _, _, _, _, _, rfl⟩ := step_cases s t h
  · exact .of_events_eq rfl rfl
  · cases hs (.reset n) (by simp [hi])
  · have haccept : CountsPresses s (accept (.cmd w n) rest s) := .of_events_eq rfl rfl
    exact haccept.trans (exec_countsPresses he)
  · exact .of_events_eq rfl rfl

theorem run_countsPresses {k : Nat} {s t : State} (hs : NoReset s)
    (h : Host.Core.run Sys2Proof.core k s = .next t) : CountsPresses s t := by
  induction k generalizing s with
  | zero =>
    cases h
    exact .of_events_eq rfl rfl
  | succ k ih =>
    obtain ⟨s', hstep, hrun⟩ := run_succ h
    exact (step_countsPresses hs hstep).trans (ih (step_keeps_noReset hs hstep) hrun)

/-- Settles O35: `run_countsPresses`; the events that show A's presses are those that show B's. -/
theorem digitCountsPresses : Obligations.DigitCountsPresses := by
  intro k s t hs h
  obtain ⟨_, _, ⟨evs, happ, rfl⟩, ⟨evsB, happB, rfl⟩, hdigit⟩ := run_countsPresses hs h
  obtain rfl : evs = evsB := List.append_cancel_left (happ.symm.trans happB)
  exact ⟨evs, happ, hdigit⟩

/-! ## Both channels in one tick -/

/-- What a tick in which a channel is confirmed writes and emits for it is what COUNT does. -/
theorem tickChannel_of_confirms {c : Chan} {lvl : Level} {s : State} (h : confirms s c lvl = true) :
    (tickChannel c lvl s).digit = countDigit c s.digit ∧
    (tickChannel c lvl s).fb = render s.cfg (countDigit c s.digit) ∧
    (tickChannel c lvl s).events =
      s.events ++ [.press c (countDigit c s.digit), .frame (render s.cfg (countDigit c s.digit))] := by
  rw [tickChannel_spec, if_pos h]
  simp

/-- The blink step emits indicator events alone. -/
theorem blinkStep_events (s : State) :
    ∃ evs, (blinkStep s).events = s.events ++ evs ∧ (∀ c, presses c evs = 0) ∧ evs.countP isFrame = 0 := by
  obtain ⟨_, htoggle⟩ | ⟨_, hsame⟩ := blinkStep_cases s
  · rw [htoggle]
    exact ⟨_, rfl, fun _ => rfl, rfl⟩
  · rw [hsame]
    exact ⟨[], (List.append_nil _).symm, fun _ => rfl, rfl⟩

/-- Settles O36: `tickChannel_of_confirms` for A and for B, where B's COUNT takes the digit back to where it was. -/
theorem bothConfirmedInOneTick : Obligations.BothConfirmedInOneTick := by
  intro lv s hA hB
  obtain ⟨hdigitA, _, hevA⟩ := tickChannel_of_confirms hA
  obtain ⟨hdigitB, hfbB, hevB⟩ := tickChannel_of_confirms ((confirms_B_tickChannel_A (lv .A) (lv .B) s).trans hB)
  rw [hdigitA, countDigit_B_countDigit_A] at hdigitB hfbB hevB
  rw [tickChannel_cfg] at hfbB hevB
  obtain ⟨blinkEvs, hev, hpresses, hframes⟩ := blinkStep_events (tickChannel .B (lv .B) (tickChannel .A (lv .A) s))
  refine ⟨afterTick lv s, countDigit .A s.digit, exec_tick lv s, countDigit_A_val _, countDigit_A_ne _,
    (blinkStep_digit _).trans hdigitB, (blinkStep_fb _).trans hfbB, blinkEvs, ?_, hpresses .A, hpresses .B, hframes⟩
  rw [afterTick, hev, hevB, hevA]
  simp

end Sys2Proof.Machine

/-! The renderer: what RENDER does, where it puts the cells and how many pixels it lights, and what another map changes
(43_renderer.md). -/

namespace Sys2Proof.Machine

/-- Settles O37: RENDER is SHOW (`exec_render`), and `showDigit_spec` says what SHOW writes and emits. -/
theorem renderShowsDigit : Obligations.RenderShowsDigit := by
  intro s
  rw [exec_render, showDigit_spec]

/-! ## Where the cells are placed -/

/-- The pixel that the multiplexer gives a logical cell (R191, R194). -/
def cellPixel (c : Config) (d : Digit) (i : Index) : Pixel := if patternCell c d i then fgWord c else 0x000000#24

theorem render_getElem_eq_cellPixel (c : Config) (d : Digit) (p : Index) :
    (render c d)[p] = cellPixel c d (mapInv c p) := render_getElem c d p

theorem mapInv_eq_of_physIndex {c : Config} {i p : Index} (h : physIndex c i = p.val) : mapInv c p = i :=
  (mapInvIsInverseOfMap c i p).mpr h

/-- The pixel in the place of a cell is that cell's: the map's inverse leads back to it. -/
theorem render_getElem_physIndex (c : Config) (d : Digit) (i : Index) :
    (render c d)[physIndex c i]'(physIndex_lt c i) = cellPixel c d i := by
  have hpixel := render_getElem_eq_cellPixel c d ⟨physIndex c i, physIndex_lt c i⟩
  rwa [mapInv_eq_of_physIndex rfl] at hpixel

/-- Settles O38: `render_getElem_physIndex` by cell, `render_getElem` by position. -/
theorem renderPlacesCellsThroughMap : Obligations.RenderPlacesCellsThroughMap :=
  fun c d i => ⟨physIndex_lt c i, render_getElem_physIndex c d i, render_getElem c d⟩

/-! ## The scatter form -/

/-- One write of the scatter form: a logical cell at its physical index. -/
def placeCell (c : Config) (d : Digit) (f : Frame) (i : Index) : Frame :=
  f.setIfInBounds (physIndex c i) (cellPixel c d i)

theorem renderScatter_eq_foldl (c : Config) (d : Digit) :
    renderScatter c d = (List.finRange 25).foldl (placeCell c d) darkFrame := rfl

/-- A write puts its cell in place, and no other cell's place is written, as the map is injective. -/
theorem placeCell_getElem (c : Config) (d : Digit) (f : Frame) (j i : Index) :
    (placeCell c d f j)[physIndex c i]'(physIndex_lt c i) =
      if j = i then cellPixel c d i else f[physIndex c i]'(physIndex_lt c i) := by
  rw [placeCell, Vector.getElem_setIfInBounds]
  by_cases hji : j = i
  · rw [if_pos (congrArg _ hji), if_pos hji, hji]
  · rw [if_neg ((physIndex_injective c).ne hji), if_neg hji]

/-- After some writes, the place of a cell holds its pixel if the cell is among those written. -/
theorem foldl_placeCell_getElem (c : Config) (d : Digit) (f : Frame) (js : List Index) (i : Index) :
    (js.foldl (placeCell c d) f)[physIndex c i]'(physIndex_lt c i) =
      if i ∈ js then cellPixel c d i else f[physIndex c i]'(physIndex_lt c i) := by
  induction js generalizing f with
  | nil => simp
  | cons j js ih =>
    rw [List.foldl_cons, ih, placeCell_getElem]
    by_cases hi : i ∈ js
    · simp [hi]
    · simp [hi, eq_comm]

/-- Settles O39: every position is the place of a cell (`exists_physIndex_eq`), and there both forms show that cell. -/
theorem renderEqualsScatterForm : Obligations.RenderEqualsScatterForm := by
  intro c d
  refine Vector.ext fun p hp => ?_
  obtain ⟨i, rfl⟩ := exists_physIndex_eq c ⟨p, hp⟩
  rw [render_getElem_physIndex]
  simp only [renderScatter_eq_foldl, foldl_placeCell_getElem, List.mem_finRange, if_true]

/-! ## The lit pixels -/

/-- A set cell is lit, where the colour of a lit cell is not the word of a dark pixel. -/
def cellLit (c : Config) (d : Digit) (i : Index) : Bool := patternCell c d i && decide (fgWord c ≠ 0x000000#24)

theorem cellPixel_ne_zero (c : Config) (d : Digit) (i : Index) :
    decide (cellPixel c d i ≠ 0x000000#24) = cellLit c d i := by
  rw [cellPixel, cellLit]
  cases patternCell c d i <;> simp

theorem litCount_eq_countP (f : Frame) :
    litCount f = (List.finRange 25).countP fun p => decide (f[p] ≠ 0x000000#24) := by
  have hlist : f.toList = (List.finRange 25).map fun p => f[p] := List.ext_getElem (by simp) (by simp)
  rw [litCount, hlist, List.countP_map]
  rfl

/-- The inverse of the map is a bijection too: it only puts the positions in another order. -/
theorem map_mapInv_finRange_perm (c : Config) : ((List.finRange 25).map (mapInv c)).Perm (List.finRange 25) := by
  have hinj : Function.Injective (mapInv c) := fun p q hpq =>
    Fin.ext (by rw [← physIndex_mapInv c p, hpq, physIndex_mapInv])
  exact Equiv.Perm.map_finRange_perm (Equiv.ofBijective _ (Finite.injective_iff_bijective.mp hinj))

/-- As many pixels are lit as cells, whatever the map. -/
theorem litCount_render (c : Config) (d : Digit) : litCount (render c d) = (List.finRange 25).countP (cellLit c d) := by
  calc litCount (render c d)
      = (List.finRange 25).countP (cellLit c d ∘ mapInv c) := by
        simp only [litCount_eq_countP, render_getElem_eq_cellPixel, cellPixel_ne_zero, Function.comp_def]
    _ = ((List.finRange 25).map (mapInv c)).countP (cellLit c d) := List.countP_map.symm
    _ = (List.finRange 25).countP (cellLit c d) := (map_mapInv_finRange_perm c).countP_eq _

/-- Settles O40: the lit cells (`litCount_render`) are the set ones, or none where `FGWORD` is 0. -/
theorem litCountMatchesPattern : Obligations.LitCountMatchesPattern := by
  intro c d
  refine ⟨fun hlit => ?_, fun hdark => ?_, fun p hunset => ?_⟩
  · have hcell : cellLit c d = patternCell c d := by
      funext i
      rw [cellLit, decide_eq_true hlit, Bool.and_true]
    rw [litCount_render, hcell, setBits]
  · simp [litCount_render, cellLit, hdark]
  · rw [render_getElem, hunset, if_neg Bool.false_ne_true]

/-! ## Another map -/

/-- The configuration `c'` is `c` but for the map. -/
def SameButMap (c c' : Config) : Prop := c'.toRawConfig = { c.toRawConfig with physMap := c'.physMap }

namespace SameButMap

variable {c c' : Config} (h : SameButMap c c')
include h

theorem field_eq {α : Type} (field : RawConfig → α) (hfield : ∀ r m, field { r with physMap := m } = field r) :
    field c'.toRawConfig = field c.toRawConfig := (congrArg field h).trans (hfield ..)

theorem timeBits_eq : c'.timeBits = c.timeBits := h.field_eq RawConfig.timeBits fun _ _ => rfl
theorem debounceMs_eq : c'.debounceMs = c.debounceMs := h.field_eq RawConfig.debounceMs fun _ _ => rfl
theorem blinkMs_eq : c'.blinkMs = c.blinkMs := h.field_eq RawConfig.blinkMs fun _ _ => rfl
theorem pattern_eq : c'.pattern = c.pattern := h.field_eq RawConfig.pattern fun _ _ => rfl
theorem channelOrder_eq : c'.channelOrder = c.channelOrder := h.field_eq RawConfig.channelOrder fun _ _ => rfl
theorem fgColor_eq : c'.fgColor = c.fgColor := h.field_eq RawConfig.fgColor fun _ _ => rfl
theorem blinkColor_eq : c'.blinkColor = c.blinkColor := h.field_eq RawConfig.blinkColor fun _ _ => rfl

theorem drive_eq (phase : Bool) : drive c' phase = drive c phase := by rw [drive, drive, h.blinkColor_eq]

theorem cellLit_eq (d : Digit) : cellLit c' d = cellLit c d := by
  funext i
  rw [cellLit, cellLit, patternCell, patternCell, fgWord, fgWord, h.pattern_eq, h.channelOrder_eq, h.fgColor_eq]

theorem litCount_render_eq (d : Digit) : litCount (render c' d) = litCount (render c d) := by
  rw [litCount_render, litCount_render, h.cellLit_eq]

end SameButMap

/-- `t` is `s` but for the map in the configuration and for the pixels: those in the frame buffer and those of the
frames emitted. -/
inductive SameButPixels (s : State) : State → Prop where
  | intro (c : Config) (f : Frame) (es : List Event) (hcfg : SameButMap s.cfg c)
      (hevents : es.map blankFrame = s.events.map blankFrame) :
      SameButPixels s { s with cfg := c, fb := f, events := es }

namespace SameButPixels

variable {s t : State}

theorem state_eq (h : SameButPixels s t) : t = { s with cfg := t.cfg, fb := t.fb, events := t.events } := by
  cases h
  rfl

theorem events_eq (h : SameButPixels s t) : t.events.map blankFrame = s.events.map blankFrame := by
  cases h with
  | intro _ _ _ _ hevents => exact hevents

theorem chan_eq (h : SameButPixels s t) (c : Chan) : t.chan c = s.chan c := by
  cases h
  cases c <;> rfl

theorem now_eq (h : SameButPixels s t) : t.now = s.now := by
  cases h
  rfl

/-! What a tick decides is decided alike: none of it reads the map or a pixel. -/

theorem elapsedSince_eq (h : SameButPixels s t) (u : Time) : t.elapsedSince u = s.elapsedSince u := by
  cases h with
  | intro c f es hcfg _ => simp only [State.elapsedSince, hcfg.timeBits_eq]

theorem windowClosed_eq (h : SameButPixels s t) (c : Chan) : windowClosed c t = windowClosed c s := by
  rw [windowClosed, windowClosed, h.chan_eq, h.elapsedSince_eq]
  cases h with
  | intro c f es hcfg _ => rw [hcfg.debounceMs_eq]

theorem confirms_eq (h : SameButPixels s t) (c : Chan) (lvl : Level) : confirms t c lvl = confirms s c lvl := by
  rw [Bool.eq_iff_iff, confirms_iff, confirms_iff, ← windowClosed_iff, ← windowClosed_iff, h.chan_eq,
    h.windowClosed_eq]

theorem blinkDue_eq (h : SameButPixels s t) : blinkDue t = blinkDue s := by
  rw [blinkDue, blinkDue, h.elapsedSince_eq]
  cases h with
  | intro c f es hcfg _ => rw [hcfg.blinkMs_eq]

/-! Each operation keeps the two states alike. -/

theorem setChan_congr (h : SameButPixels s t) (c : Chan) (v : ButtonChannel) :
    SameButPixels (s.setChan c v) (t.setChan c v) := by
  cases h with
  | intro cfg f es hcfg hevents => cases c <;> exact .intro cfg f es hcfg hevents

theorem setChanState_congr (h : SameButPixels s t) (c : Chan) (v : BtnState) :
    SameButPixels (s.setChanState c v) (t.setChanState c v) := by
  rw [State.setChanState, State.setChanState, h.chan_eq]
  exact h.setChan_congr c _

theorem showDigit_congr (h : SameButPixels s t) : SameButPixels (showDigit s) (showDigit t) := by
  cases h with
  | intro c f es hcfg hevents =>
    rw [showDigit_spec, showDigit_spec]
    exact .intro c _ _ hcfg (by simp [hevents, blankFrame])

theorem count_congr (h : SameButPixels s t) (c : Chan) : SameButPixels (count c s) (count c t) := by
  cases h with
  | intro cfg f es hcfg hevents =>
    rw [count_spec, count_spec]
    exact .intro cfg _ _ hcfg (by simp [hevents, blankFrame])

theorem toggle_congr (h : SameButPixels s t) : SameButPixels (toggle s) (toggle t) := by
  cases h with
  | intro c f es hcfg hevents =>
    simp only [toggle, emit, hcfg.drive_eq]
    exact .intro c f _ hcfg (by simp [hevents])

theorem tickChannel_congr (h : SameButPixels s t) (c : Chan) (lvl : Level) :
    SameButPixels (tickChannel c lvl s) (tickChannel c lvl t) := by
  have hdebounced := h.setChanState_congr c (stateAfter (s.chan c).state (windowClosed c s) (pressed lvl))
  rw [tickChannel_spec, tickChannel_spec, h.confirms_eq, h.chan_eq, h.windowClosed_eq]
  split
  · exact hdebounced.count_congr c
  · exact hdebounced

theorem blinkStep_congr (h : SameButPixels s t) : SameButPixels (blinkStep s) (blinkStep t) := by
  rw [blinkStep, blinkStep, h.blinkDue_eq]
  split
  · exact h.toggle_congr
  · exact h

theorem exec_congr {i : Instr} {s' t' : State} (h : SameButPixels s t) (hs : exec i s = .next s')
    (ht : exec i t = .next t') : SameButPixels s' t' := by
  cases i with
  | edge ch lvl =>
    rw [exec_edge_eq_setChan hs, exec_edge_eq_setChan ht, h.chan_eq, h.now_eq]
    exact h.setChan_congr ch _
  | tick lvlA lvlB =>
    cases hs
    cases ht
    exact ((h.tickChannel_congr .A lvlA).tickChannel_congr .B lvlB).blinkStep_congr
  | blinken en =>
    cases hs
    cases ht
    cases h with
    | intro c f es hcfg hevents => exact .intro c f es hcfg hevents
  | render =>
    cases hs
    cases ht
    exact h.showDigit_congr

end SameButPixels

/-- Settles O41: the lit cells do not depend on the map (`SameButMap.litCount_render_eq`), and a command keeps the two
states alike (`SameButPixels.exec_congr`). -/
theorem mapOnlyMovesPixels : Obligations.MapOnlyMovesPixels := by
  intro s c hcfg
  refine ⟨SameButMap.litCount_render_eq hcfg, fun i t₁ t₂ h₁ h₂ => ?_⟩
  have hstart : SameButPixels s { s with cfg := c } := .intro c s.fb s.events hcfg rfl
  have hend := hstart.exec_congr h₁ h₂
  have hc : t₂.cfg = c := exec_cfg h₂
  exact ⟨hc ▸ hend.state_eq, hend.events_eq⟩

end Sys2Proof.Machine

/-! The blink: what ticks, commands, steps and runs do to it, when its elapsed time reaches the period under regular
ticks, and that it never stops (44_blink.md). -/

namespace Sys2Proof.Machine

/-! ## The blink step -/

/-- The indicator's drive after a toggle, in the words of R230. -/
theorem drive_not (c : Config) (phase : Bool) :
    drive c (!phase) = if phase = false then c.blinkColor else 0b000#3 := by cases phase <;> rfl

/-- Settles O42: the two cases of `blinkStep_cases`. -/
theorem blinkStepTogglesWhenDue : Obligations.BlinkStepTogglesWhenDue := by
  intro s
  rw [← drive_not]
  obtain ⟨hdue, htoggle⟩ | ⟨hnot, hsame⟩ := blinkStep_cases s
  · rw [if_pos ((toggles_iff s).mp hdue), htoggle]
  · rw [if_neg fun hdue => Bool.false_ne_true (hnot.symm.trans ((toggles_iff s).mpr hdue)), hsame]

theorem blinkStep_blink (s : State) :
    (blinkStep s).blink =
      if toggles s then { active := s.blink.active, phase := !s.blink.phase, t := s.now } else s.blink := by
  obtain ⟨hdue, h⟩ | ⟨hnot, h⟩ := blinkStep_cases s
  · rw [h, hdue]; rfl
  · rw [h, hnot]; rfl

theorem blinkStep_indicator (s : State) :
    (blinkStep s).indicator = if toggles s then drive s.cfg (!s.blink.phase) else s.indicator := by
  obtain ⟨hdue, h⟩ | ⟨hnot, h⟩ := blinkStep_cases s
  · rw [h, hdue]; rfl
  · rw [h, hnot]; rfl

/-- Whether a tick toggles depends on the configuration, `now` and the blink record alone. -/
theorem toggles_congr {s t : State} (hcfg : t.cfg = s.cfg) (hnow : t.now = s.now) (hblink : t.blink = s.blink) :
    toggles t = toggles s := by
  rw [toggles, toggles, hcfg, hnow, hblink]

/-! ## The blink after a TICK -/

@[simp] theorem tickChannel_blink (c : Chan) (lvl : Level) (s : State) : (tickChannel c lvl s).blink = s.blink := by
  rw [tickChannel_spec]; split <;> simp
@[simp] theorem tickChannel_indicator (c : Chan) (lvl : Level) (s : State) :
    (tickChannel c lvl s).indicator = s.indicator := by
  rw [tickChannel_spec]; split <;> simp

/-- The channels' parts of a tick do not decide whether it toggles. -/
@[simp] theorem toggles_tickChannel (c : Chan) (lvl : Level) (s : State) : toggles (tickChannel c lvl s) = toggles s :=
  toggles_congr (tickChannel_cfg ..) (tickChannel_now ..) (tickChannel_blink ..)

theorem afterTick_blink (lv : Chan → Level) (s : State) :
    (afterTick lv s).blink =
      if toggles s then { active := s.blink.active, phase := !s.blink.phase, t := s.now } else s.blink := by
  simp [afterTick, blinkStep_blink]

theorem afterTick_indicator (lv : Chan → Level) (s : State) :
    (afterTick lv s).indicator = if toggles s then drive s.cfg (!s.blink.phase) else s.indicator := by
  simp [afterTick, blinkStep_indicator]

/-- Settles O47: no elapsed time is below a period of 0. -/
theorem zeroPeriodTogglesEveryTick : Obligations.ZeroPeriodTogglesEveryTick := by
  intro s lv hzero hactive
  have hdue : toggles s = true := (toggles_iff s).mpr ⟨hactive, by rw [hzero]; exact Nat.zero_le _⟩
  exact ⟨_, exec_tick lv s, by rw [afterTick_blink, if_pos hdue, hactive], by rw [afterTick_indicator, if_pos hdue]⟩

/-! ## The blink after a command and after a step -/

theorem exec_blinken (en : Bool) (s : State) :
    exec (.blinken en) s = .next { s with blink := { s.blink with active := en } } := rfl

/-- Settles O43: `exec_blinken`. -/
theorem blinkenWritesActiveOnly : Obligations.BlinkenWritesActiveOnly := exec_blinken

theorem step_tick {s : State} {w : Word} {n : Nat} {rest : List Input} {lv : Chan → Level}
    (h : s.inputs = .cmd w n :: rest) (hd : decode w = .legal (.tick (lv .A) (lv .B))) :
    step s = .next (afterTick lv (accept (.cmd w n) rest s)) := (step_legal h hd).trans (exec_tick ..)

/-- What a command can do to the blink and the indicator: keep both, write `active`, or toggle. -/
theorem exec_blink {i : Instr} {s t : State} (h : exec i s = .next t) :
    (t.blink = s.blink ∧ t.indicator = s.indicator) ∨
    (∃ en, i = .blinken en ∧ t.blink = { s.blink with active := en } ∧ t.indicator = s.indicator) ∨
    (∃ lv : Chan → Level, i = .tick (lv .A) (lv .B) ∧ toggles s = true) := by
  obtain ⟨_, _, _, rfl⟩ | ⟨_, _, _, _, rfl⟩ | ⟨lv, rfl, rfl⟩ | ⟨en, rfl, rfl⟩ | ⟨_, rfl⟩ := exec_cases h
  · exact .inl ⟨setChan_blink .., setChan_indicator ..⟩
  · exact .inl ⟨rfl, rfl⟩
  · by_cases hdue : toggles s = true
    · exact .inr (.inr ⟨lv, rfl, hdue⟩)
    · exact .inl ⟨by rw [afterTick_blink, if_neg hdue], by rw [afterTick_indicator, if_neg hdue]⟩
  · exact .inr (.inl ⟨en, rfl, rfl, rfl⟩)
  · exact .inl ⟨showDigit_blink s, showDigit_indicator s⟩

/-- What a step can do to the blink and the indicator: keep both, reset them, write `active`, or toggle at a tick that
is due (R233). -/
theorem step_blink {s t : State} (h : step s = .next t) :
    (t.blink = s.blink ∧ t.indicator = s.indicator) ∨
    NextIsReset s ∨
    (∃ en, NextIsCommand s (.blinken en) ∧ t.blink = { s.blink with active := en } ∧ t.indicator = s.indicator) ∨
    (∃ w n rest lvlA lvlB, s.inputs = .cmd w n :: rest ∧ decode w = .legal (.tick lvlA lvlB) ∧
      toggles (accept (.cmd w n) rest s) = true) := by
  obtain ⟨_, rfl⟩ | ⟨n, rest, hi, _⟩ | ⟨w, n, rest, i, hi, hd, he⟩ | ⟨_, _, _, _, _, _, rfl⟩ := step_cases s t h
  · exact .inl ⟨rfl, rfl⟩
  · exact .inr (.inl ⟨n, rest, hi⟩)
  · obtain hkept | ⟨en, rfl, hactive⟩ | ⟨lv, rfl, hdue⟩ := exec_blink he
    · exact .inl hkept
    · exact .inr (.inr (.inl ⟨en, ⟨w, n, rest, hi, hd⟩, hactive⟩))
    · exact .inr (.inr (.inr ⟨w, n, rest, _, _, hi, hd, hdue⟩))
  · exact .inl ⟨rfl, rfl⟩

/-- Settles O44: what a tick does to the blink reads only what `toggles_congr` names, and `step_blink` names the
writers. -/
theorem blinkIsIndependentOfButtons : Obligations.BlinkIsIndependentOfButtons := by
  refine ⟨fun s₁ s₂ t₁ t₂ lv₁ lv₂ hcfg hnow hblink hind h₁ h₂ => ?_, fun s t h hchanged => ?_⟩
  · cases (exec_tick lv₁ s₁).symm.trans h₁
    cases (exec_tick lv₂ s₂).symm.trans h₂
    rw [afterTick_blink, afterTick_blink, afterTick_indicator, afterTick_indicator,
      toggles_congr hcfg hnow hblink, hcfg, hnow, hblink, hind]
    exact ⟨rfl, rfl⟩
  · obtain ⟨hblink, hind⟩ | hreset | ⟨_, _, hblink, hind⟩ | htick := step_blink h
    · simp [hblink, hind] at hchanged
    · exact .inl hreset
    · simp [hblink, hind] at hchanged
    · exact .inr htick

/-! ## A suspended blink -/

/-- The blink is suspended, and the inputs that wait do not resume it. -/
structure Suspended (s : State) : Prop where
  inactive : s.blink.active = false
  no_resume : ∀ x ∈ s.inputs, isReset x = false ∧ isBlinkOn x = false

/-- A step keeps a suspended blink as it is. -/
theorem Suspended.step {s t : State} (hs : Suspended s) (h : Machine.step s = .next t) :
    Suspended t ∧ t.blink = s.blink ∧ t.indicator = s.indicator := by
  have hkept : t.blink = s.blink ∧ t.indicator = s.indicator := by
    obtain hkept | ⟨n, rest, hi⟩ | ⟨en, ⟨w, n, rest, hi, hd⟩, hblink, hind⟩ | ⟨_, _, _, _, _, _, _, hdue⟩ := step_blink h
    · exact hkept
    · obtain ⟨hno, _⟩ := hs.no_resume (.reset n) (by simp [hi])
      cases hno
    · obtain ⟨_, hoff⟩ := hs.no_resume (.cmd w n) (by simp [hi])
      cases en with
      | true => simp [isBlinkOn, hd] at hoff
      | false => exact ⟨by rw [hblink, ← hs.inactive], hind⟩
    · obtain ⟨hactive, _⟩ := (toggles_iff _).mp hdue
      cases hs.inactive.symm.trans hactive
  refine ⟨⟨by rw [hkept.1]; exact hs.inactive, ?_⟩, hkept⟩
  rw [step_inputs h]
  exact fun x hx => hs.no_resume x (List.mem_of_mem_tail hx)

/-- Settles O46: `Suspended.step` along the run; after BLINKEN 1 the stamp is the one kept. -/
theorem suspendedBlinkHolds : Obligations.SuspendedBlinkHolds := by
  refine ⟨fun k s t hinactive hno hrun => ?_, fun s t now lv h hdue => ?_⟩
  · have hs : Suspended s := ⟨hinactive, hno⟩
    clear hinactive hno
    induction k generalizing s with
    | zero => cases hrun; exact ⟨rfl, rfl⟩
    | succ k ih =>
      obtain ⟨s', hstep, hrun'⟩ := run_succ hrun
      obtain ⟨hs', hblink, hind⟩ := hs.step hstep
      obtain ⟨hblink', hind'⟩ := ih s' hrun' hs'
      exact ⟨hblink'.trans hblink, hind'.trans hind⟩
  · cases h
    exact ⟨_, exec_tick lv _, by rw [afterTick_blink, if_pos ((toggles_iff _).mpr ⟨rfl, hdue⟩)]⟩

/-! ## Elapsed time from tick to tick -/

theorem elapsed_cast (w : Nat) (now t : Time) :
    (elapsed w now t : Int) = ((now : Int) - (t : Int)) % ((2 ^ w : Nat) : Int) :=
  Int.toNat_of_nonneg (Int.emod_nonneg _ (by exact_mod_cast (Nat.two_pow_pos w).ne'))

theorem elapsed_self (w : Nat) (t : Time) : elapsed w t t = 0 := by simp [elapsed]

/-- A reading `d` ms later gives `d` ms more of elapsed time, around the wrap. -/
theorem elapsed_timeValue_add (w n d : Nat) (t : Time) :
    elapsed w (timeValue w (n + d)) t = (elapsed w (timeValue w n) t + d) % 2 ^ w := by
  have hmod : ((((n : Int) + d) % 2 ^ w - t) % 2 ^ w) = (((n : Int) % 2 ^ w - t) % 2 ^ w + d) % 2 ^ w := by
    rw [Int.emod_add_emod, sub_add, Int.emod_sub_emod, Int.emod_sub_emod, sub_sub_eq_add_sub]
  zify
  rw [elapsed_cast, elapsed_cast, timeValue, timeValue]
  exact_mod_cast hmod

/-- Less than a wrap after a stamp, elapsed time is the difference of the readings. -/
theorem elapsed_timeValue {w d : Nat} (t0 : Nat) (h : d < 2 ^ w) :
    elapsed w (timeValue w (t0 + d)) (timeValue w t0) = d := by
  rw [elapsed_timeValue_add, elapsed_self, Nat.zero_add, Nat.mod_eq_of_lt h]

/-- `⌈B / P⌉` is the least number of periods `P` that covers `B`. -/
theorem ceil_div_le_iff {B P m : Nat} (hP : 1 ≤ P) : (B + P - 1) / P ≤ m ↔ B ≤ m * P := by
  rw [← Nat.ceilDiv_eq_add_pred_div, ceilDiv_le_iff_le_mul hP, Nat.mul_comm]

/-! ## Runs -/

theorem run_of_step (k : Nat) {s t : State} (h : step s = .next t) :
    Host.Core.run Sys2Proof.core (k + 1) s = Host.Core.run Sys2Proof.core k t := by
  have hcore : Sys2Proof.core.step s = .next t := h
  simp only [Host.Core.run, hcore]

/-- A run goes on from the state that its beginning ends in. -/
theorem run_add {j : Nat} (k : Nat) {s t : State} (h : Host.Core.run Sys2Proof.core j s = .next t) :
    Host.Core.run Sys2Proof.core (j + k) s = Host.Core.run Sys2Proof.core k t := by
  induction j generalizing s with
  | zero => cases h; rw [Nat.zero_add]
  | succ j ih =>
    obtain ⟨s', hstep, hrun⟩ := run_succ h
    rw [Nat.add_right_comm, run_of_step _ hstep, ih hrun]

/-- A run takes its inputs off the stream. -/
theorem run_inputs {k : Nat} {s t : State} (h : Host.Core.run Sys2Proof.core k s = .next t) :
    t.inputs = s.inputs.drop k := by
  induction k generalizing s with
  | zero => cases h; rfl
  | succ k ih =>
    obtain ⟨s', hstep, hrun⟩ := run_succ h
    rw [ih hrun, step_inputs hstep, List.drop_tail]

/-! ## Regular ticks -/

theorem tickStream_drop {t0 P n j : Nat} (lv : Nat → Chan → Level) (rest : List Input) (hj : j < n) :
    (tickStream t0 P n lv ++ rest).drop j =
      .cmd (encode (.tick (lv (j + 1) .A) (lv (j + 1) .B))) (t0 + (j + 1) * P) ::
        (tickStream t0 P n lv ++ rest).drop (j + 1) := by
  have hlen : j < (tickStream t0 P n lv).length := by simpa [tickStream] using hj
  rw [List.drop_eq_getElem_cons (by rw [List.length_append]; omega), List.getElem_append_left hlen]
  simp [tickStream]

/-- A tick `d` ms after the stamp of an active blink toggles exactly if `d` is at least `BLINK_MS`. -/
theorem step_tick_after {s : State} {t0 d : Nat} {rest : List Input} (lv : Chan → Level)
    (hi : s.inputs = .cmd (encode (.tick (lv .A) (lv .B))) (t0 + d) :: rest) (hd : d < 2 ^ s.cfg.timeBits)
    (hactive : s.blink.active = true) (hstamp : s.blink.t = timeValue s.cfg.timeBits t0) :
    ∃ t, step s = .next t ∧
      t.blink = (if s.cfg.blinkMs ≤ d then
        { active := true, phase := !s.blink.phase, t := timeValue s.cfg.timeBits (t0 + d) } else s.blink) ∧
      t.indicator = if s.cfg.blinkMs ≤ d then drive s.cfg (!s.blink.phase) else s.indicator := by
  have hdue : toggles (accept (.cmd (encode (.tick (lv .A) (lv .B))) (t0 + d)) rest s) = true ↔ s.cfg.blinkMs ≤ d := by
    simp [toggles_iff, hactive, hstamp, inputReading, elapsed_timeValue t0 hd]
  refine ⟨_, step_tick hi (decode_encode _), ?_, ?_⟩
  · simp only [afterTick_blink, hdue]
    simp [hactive, inputReading]
  · simp only [afterTick_indicator, hdue]
    simp

/-- An active blink with the stamp `t0`, and `n` ticks to come, one every `P` ms after it, before the elapsed time
wraps. -/
structure RegularTicks (s : State) (t0 P n : Nat) (lv : Nat → Chan → Level) (rest : List Input) : Prop where
  active : s.blink.active = true
  stamp : s.blink.t = timeValue s.cfg.timeBits t0
  stream : s.inputs = tickStream t0 P n lv ++ rest
  within_wrap : n * P < 2 ^ s.cfg.timeBits

section
variable {s t : State} {t0 P n j : Nat} {lv : Nat → Chan → Level} {rest : List Input}

/-- While the blink holds, the next regular tick toggles it exactly if it comes at least `BLINK_MS` after the stamp. -/
theorem RegularTicks.run_succ (hs : RegularTicks s t0 P n lv rest) (hj : j < n)
    (hrun : Host.Core.run Sys2Proof.core j s = .next t) (hblink : t.blink = s.blink) :
    ∃ u, Host.Core.run Sys2Proof.core (j + 1) s = .next u ∧
      u.blink = (if s.cfg.blinkMs ≤ (j + 1) * P then
        { active := true, phase := !s.blink.phase, t := timeValue s.cfg.timeBits (t0 + (j + 1) * P) } else s.blink) ∧
      u.indicator = if s.cfg.blinkMs ≤ (j + 1) * P then drive s.cfg (!s.blink.phase) else t.indicator := by
  have hcfg : t.cfg = s.cfg := configurationIsNeverWritten j s t hrun
  have hnext := (run_inputs hrun).trans ((congrArg _ hs.stream).trans (tickStream_drop lv rest hj))
  have hwrap : (j + 1) * P < 2 ^ t.cfg.timeBits :=
    hcfg ▸ (Nat.mul_le_mul_right P hj).trans_lt hs.within_wrap
  obtain ⟨u, hstep, hu⟩ := step_tick_after (lv (j + 1)) hnext hwrap (hblink ▸ hs.active) (hblink ▸ hcfg ▸ hs.stamp)
  rw [hcfg, hblink] at hu
  exact ⟨u, (run_add 1 hrun).trans (run_of_step 0 hstep), hu⟩

/-- The blink holds through the ticks that come less than `BLINK_MS` after its stamp. -/
theorem RegularTicks.run_holds (hs : RegularTicks s t0 P n lv rest) (hj : j ≤ n)
    (hbefore : ∀ i < j, (i + 1) * P < s.cfg.blinkMs) :
    ∃ t, Host.Core.run Sys2Proof.core j s = .next t ∧ t.blink = s.blink ∧ t.indicator = s.indicator := by
  induction j with
  | zero => exact ⟨s, rfl, rfl, rfl⟩
  | succ j ih =>
    obtain ⟨t, hrun, hblink, hind⟩ := ih (by omega) fun i hi => hbefore i (by omega)
    obtain ⟨u, hrun', hblink', hind'⟩ := hs.run_succ hj hrun hblink
    have hearly : ¬s.cfg.blinkMs ≤ (j + 1) * P := Nat.not_le.mpr (hbefore j (by omega))
    exact ⟨u, hrun', by rw [hblink', if_neg hearly], by rw [hind', if_neg hearly, hind]⟩

end

/-- Settles O45: `⌈B / P⌉` is the first tick that comes at least `B` after the stamp (`ceil_div_le_iff`). -/
theorem blinkTogglesAtCeilingOfPeriod : Obligations.BlinkTogglesAtCeilingOfPeriod := by
  intro s t0 P n lv rest hP hB hn hwrap hactive hstamp hi
  have hs : RegularTicks s t0 P n lv rest := ⟨hactive, hstamp, hi, hwrap⟩
  have hceil (m : Nat) : n ≤ m ↔ s.cfg.blinkMs ≤ m * P := hn ▸ ceil_div_le_iff hP
  have hearly (m : Nat) (hm : m < n) : m * P < s.cfg.blinkMs := by rwa [← Nat.not_le, ← hceil, Nat.not_le]
  have hreached : s.cfg.blinkMs ≤ n * P := (hceil n).mp le_rfl
  obtain ⟨p, rfl⟩ : ∃ p, n = p + 1 := Nat.exists_eq_succ_of_ne_zero (by rintro rfl; omega)
  have hholds (j : Nat) (hj : j < p + 1) := hs.run_holds hj.le fun i hi => hearly (i + 1) (by omega)
  obtain ⟨t, hrun, hblink, _⟩ := hholds p p.lt_succ_self
  obtain ⟨u, hrun', hblink', hind'⟩ := hs.run_succ p.lt_succ_self hrun hblink
  have hlast := hearly p p.lt_succ_self
  rw [if_pos hreached] at hblink' hind'
  exact ⟨hholds, ⟨u, hrun', hblink', hind'⟩, hreached, by rw [Nat.add_one_mul]; omega⟩

/-! ## Runs and the inputs behind them -/

theorem step_is_next (s : State) : ∃ t, step s = .next t := by
  cases hi : s.inputs with
  | nil => exact ⟨s, step_idle hi⟩
  | cons x rest =>
    cases x with
    | reset n => exact ⟨_, step_reset hi⟩
    | cmd w n =>
      cases hd : decode w with
      | legal i =>
        obtain ⟨t, ht⟩ := exec_is_next i (accept (.cmd w n) rest s)
        exact ⟨t, (step_legal hi hd).trans ht⟩
      | illegal why => exact ⟨_, step_illegal hi hd⟩

theorem run_is_next (k : Nat) (s : State) : ∃ t, Host.Core.run Sys2Proof.core k s = .next t := by
  induction k generalizing s with
  | zero => exact ⟨s, rfl⟩
  | succ k ih =>
    obtain ⟨s', hstep⟩ := step_is_next s
    rw [run_of_step k hstep]
    exact ih s'

/-- `s` with other inputs waiting. -/
def State.withInputs (s : State) (xs : List Input) : State := { s with inputs := xs }

@[simp] theorem withInputs_chan (s : State) (xs : List Input) (c : Chan) : (s.withInputs xs).chan c = s.chan c := by
  cases c <;> rfl

/-! No command reads the inputs that wait. -/

theorem setChan_withInputs (s : State) (c : Chan) (v : ButtonChannel) (xs : List Input) :
    (s.withInputs xs).setChan c v = (s.setChan c v).withInputs xs := by cases c <;> rfl

theorem setChanState_withInputs (s : State) (c : Chan) (v : BtnState) (xs : List Input) :
    (s.withInputs xs).setChanState c v = (s.setChanState c v).withInputs xs := by
  rw [State.setChanState, withInputs_chan, setChan_withInputs]
  rfl

theorem tickChannel_withInputs (c : Chan) (lvl : Level) (s : State) (xs : List Input) :
    tickChannel c lvl (s.withInputs xs) = (tickChannel c lvl s).withInputs xs := by
  have hchan := withInputs_chan s xs c
  have hconf : confirms (s.withInputs xs) c lvl = confirms s c lvl := confirms_congr lvl rfl rfl hchan
  have hclosed : windowClosed c (s.withInputs xs) = windowClosed c s := windowClosed_congr rfl rfl hchan
  rw [tickChannel_spec, tickChannel_spec, hconf, hclosed, hchan, setChanState_withInputs]
  split <;> rfl

theorem blinkStep_withInputs (s : State) (xs : List Input) :
    blinkStep (s.withInputs xs) = (blinkStep s).withInputs xs := by
  have hdue : blinkDue (s.withInputs xs) = blinkDue s := rfl
  rw [blinkStep, blinkStep, hdue]
  split <;> rfl

theorem afterTick_withInputs (lv : Chan → Level) (s : State) (xs : List Input) :
    afterTick lv (s.withInputs xs) = (afterTick lv s).withInputs xs := by
  rw [afterTick, tickChannel_withInputs, tickChannel_withInputs, blinkStep_withInputs, afterTick]

theorem exec_withInputs {i : Instr} {s t : State} (xs : List Input) (h : exec i s = .next t) :
    exec i (s.withInputs xs) = .next (t.withInputs xs) := by
  cases i with
  | edge ch lvl =>
    rw [exec_edge, execEdge] at h ⊢
    rw [withInputs_chan]
    split at h <;> cases h
    · rw [if_pos ‹_›, setChan_withInputs]; rfl
    · rw [if_neg ‹_›]
  | tick lvlA lvlB => cases h; exact congrArg _ (afterTick_withInputs (tickLevels lvlA lvlB) s xs)
  | blinken en => cases h; rfl
  | render => cases h; rfl

/-- A step reads the next input alone, of those that wait. -/
theorem step_withInputs {s t : State} {x : Input} {xs : List Input} (ys : List Input) (hi : s.inputs = x :: xs)
    (h : step s = .next t) : step (s.withInputs (x :: ys)) = .next (t.withInputs ys) := by
  obtain ⟨hnil, _⟩ | ⟨n, rest, hc, rfl⟩ | ⟨w, n, rest, i, hc, hd, he⟩ | ⟨w, n, rest, why, hc, hd, rfl⟩ := step_cases s t h
  · cases hi.symm.trans hnil
  · cases hi.symm.trans hc
    exact step_reset rfl
  · cases hi.symm.trans hc
    exact (step_legal rfl hd).trans (exec_withInputs ys he)
  · cases hi.symm.trans hc
    exact step_illegal rfl hd

/-- A run of `k` steps reads the first `k` inputs alone, of those that wait. -/
theorem run_withInputs {k : Nat} {s t : State} {xs ys : List Input} (hk : k ≤ xs.length) (hi : s.inputs = xs ++ ys)
    (h : Host.Core.run Sys2Proof.core k s = .next t) :
    Host.Core.run Sys2Proof.core k (s.withInputs xs) = .next (t.withInputs (xs.drop k)) := by
  induction k generalizing s xs with
  | zero => cases h; rfl
  | succ k ih =>
    obtain ⟨s', hstep, hrun⟩ := run_succ h
    cases xs with
    | nil => cases hk
    | cons x xs =>
      rw [run_of_step k (step_withInputs xs hi hstep)]
      exact ih (Nat.le_of_succ_le_succ hk) (by rw [step_inputs hstep, hi]; rfl) hrun

/-- A TICK input is a word that decodes to a TICK. -/
theorem exists_tick_word {x : Input} (h : isTick x = true) :
    ∃ (w : Word) (n : Nat) (lv : Chan → Level), x = .cmd w n ∧ decode w = .legal (.tick (lv .A) (lv .B)) := by
  obtain ⟨lvlA, lvlB, hinstr⟩ := (isTick_iff x).mp h
  cases x with
  | reset n => cases hinstr
  | cmd w n =>
    cases hd : decode w with
    | illegal why => cases (inputInstr_illegal n hd).symm.trans hinstr
    | legal i =>
      cases (inputInstr_legal n hd).symm.trans hinstr
      exact ⟨w, n, tickLevels lvlA lvlB, rfl, hd⟩

/-! ## An active blink under the ticks of the host's contract -/

/-- The blink is active, the inputs that wait do not suspend it, their ticks come when due, and a tick comes between the
end of the blink period and the wrap. -/
structure GoesOnBlinking (h : HostView) (s : State) : Prop where
  active : s.blink.active = true
  no_suspend : ∀ x ∈ s.inputs, isReset x = false ∧ isBlinkOff x = false
  on_time : keeps HostView.tickAllows s.inputs h s = true
  room : s.cfg.blinkMs + s.cfg.pollMs ≤ 2 ^ s.cfg.timeBits

/-- The elapsed time that the next tick compares, if it comes when due. -/
def dueElapsed (h : HostView) (s : State) : Nat :=
  elapsed s.cfg.timeBits (timeValue s.cfg.timeBits h.tickDue) s.blink.t

namespace GoesOnBlinking
variable {h : HostView} {s t : State} {x : Input} {xs : List Input}

theorem tickAllows_next (hs : GoesOnBlinking h s) (hi : s.inputs = x :: xs) (hstep : Machine.step s = .next t) :
    h.tickAllows s x = true ∧ keeps HostView.tickAllows xs (h.after x s t) t = true := by
  have hk := hs.on_time
  rwa [hi, keeps_cons _ h s t x xs hi hstep, Bool.and_eq_true] at hk

/-- A step that is no tick keeps the blink. -/
theorem blink_of_not_tick (hs : GoesOnBlinking h s) (hi : s.inputs = x :: xs) (hx : isTick x = false)
    (hstep : Machine.step s = .next t) : t.blink = s.blink := by
  obtain ⟨hreset, hoff⟩ := hs.no_suspend x (by simp [hi])
  obtain ⟨hkept, _⟩ | ⟨n, rest, hc⟩ | ⟨en, ⟨w, n, rest, hc, hd⟩, hblink, _⟩ | ⟨w, n, rest, lvlA, lvlB, hc, hd, _⟩ :=
    step_blink hstep
  · exact hkept
  · cases hi.symm.trans hc
    cases hreset
  · cases hi.symm.trans hc
    cases en with
    | true => rw [hblink, ← hs.active]
    | false => simp [isBlinkOff, inputInstr_legal n hd] at hoff
  · cases hi.symm.trans hc
    cases hx.symm.trans ((isTick_iff _).mpr ⟨_, _, inputInstr_legal n hd⟩)

/-- A tick toggles exactly if the elapsed time of the due reading is at least `BLINK_MS`. -/
theorem blink_of_tick (hs : GoesOnBlinking h s) (hi : s.inputs = x :: xs) (hx : isTick x = true)
    (hstep : Machine.step s = .next t) :
    t.blink = if s.cfg.blinkMs ≤ dueElapsed h s then
      { active := true, phase := !s.blink.phase, t := timeValue s.cfg.timeBits h.tickDue } else s.blink := by
  obtain ⟨hallow, _⟩ := hs.tickAllows_next hi hstep
  obtain ⟨w, n, lv, rfl, hd⟩ := exists_tick_word hx
  have hread : inputReading (.cmd w n) = h.tickDue := by simpa [HostView.tickAllows, hx] using hallow
  obtain rfl : n = h.tickDue := hread
  cases (step_tick hi hd).symm.trans hstep
  have hdue : toggles (accept (.cmd w h.tickDue) xs s) = true ↔ s.cfg.blinkMs ≤ dueElapsed h s := by
    simp [toggles_iff, hs.active, dueElapsed, inputReading]
  simp only [afterTick_blink, hdue]
  simp [hs.active, inputReading]

/-- Every step keeps what makes the blink go on. -/
theorem step (hs : GoesOnBlinking h s) (hi : s.inputs = x :: xs) (hstep : Machine.step s = .next t) :
    GoesOnBlinking (h.after x s t) t where
  active := by
    cases hx : isTick x with
    | false => rw [hs.blink_of_not_tick hi hx hstep, hs.active]
    | true =>
      rw [hs.blink_of_tick hi hx hstep]
      split
      · rfl
      · exact hs.active
  no_suspend := by
    rw [step_inputs hstep]
    exact fun y hy => hs.no_suspend y (List.mem_of_mem_tail hy)
  on_time := by
    obtain ⟨_, hrest⟩ := hs.tickAllows_next hi hstep
    rwa [step_inputs hstep, hi]
  room := step_cfg hstep ▸ hs.room

theorem run {k : Nat} (hs : GoesOnBlinking h s) (hrun : Host.Core.run Sys2Proof.core k s = .next t) :
    ∃ h', GoesOnBlinking h' t := by
  induction k generalizing h s with
  | zero => cases hrun; exact ⟨h, hs⟩
  | succ k ih =>
    obtain ⟨s', hstep, hrun'⟩ := run_succ hrun
    cases hi : s.inputs with
    | nil =>
      cases (step_idle hi).symm.trans hstep
      exact ih hs hrun'
    | cons x xs => exact ih (hs.step hi hstep) hrun'

/-- An input that is no tick leaves the elapsed time of the next tick as it is. -/
theorem dueElapsed_of_not_tick (hs : GoesOnBlinking h s) (hi : s.inputs = x :: xs) (hx : isTick x = false)
    (hstep : Machine.step s = .next t) : dueElapsed (h.after x s t) t = dueElapsed h s := by
  rw [dueElapsed, dueElapsed, step_cfg hstep, hs.blink_of_not_tick hi hx hstep, after_tickDue, hx]
  rfl

/-- From a tick that does not toggle to the next one the elapsed time grows by `POLL_MS`, with no wrap between. -/
theorem dueElapsed_of_tick (hs : GoesOnBlinking h s) (hi : s.inputs = x :: xs) (hx : isTick x = true)
    (hearly : dueElapsed h s < s.cfg.blinkMs) (hstep : Machine.step s = .next t) :
    dueElapsed (h.after x s t) t = dueElapsed h s + s.cfg.pollMs := by
  have hblink : t.blink = s.blink := by rw [hs.blink_of_tick hi hx hstep, if_neg (Nat.not_le.mpr hearly)]
  have hroom := hs.room
  rw [dueElapsed, step_cfg hstep, hblink, after_tickDue, if_pos hx, elapsed_timeValue_add, ← dueElapsed,
    Nat.mod_eq_of_lt (by omega)]

/-- If `q` periods of `POLL_MS` take the elapsed time of the next tick to `BLINK_MS`, one of the next `q + 1` ticks
toggles. -/
theorem toggles_within (hs : GoesOnBlinking h s) (hi : s.inputs = xs) (q : Nat)
    (hq : s.cfg.blinkMs ≤ dueElapsed h s + q * s.cfg.pollMs) (hticks : q + 1 ≤ xs.countP isTick) :
    ∃ m t, 0 < m ∧ m ≤ xs.length ∧ (xs.take m).countP isTick ≤ q + 1 ∧
      Host.Core.run Sys2Proof.core m s = .next t ∧ t.blink.phase ≠ s.blink.phase := by
  induction xs generalizing h s q with
  | nil => cases hticks
  | cons x xs ih =>
    obtain ⟨s', hstep⟩ := step_is_next s
    have hinputs : s'.inputs = xs := by rw [step_inputs hstep, hi]; rfl
    have hcfg := step_cfg hstep
    have hs' := hs.step hi hstep
    cases hx : isTick x with
    | false =>
      obtain ⟨m, t, _, hlen, hcount, hrun, hphase⟩ :=
        ih hs' hinputs q (by rwa [hs.dueElapsed_of_not_tick hi hx hstep, hcfg]) (by simpa [hx] using hticks)
      rw [hs.blink_of_not_tick hi hx hstep] at hphase
      exact ⟨m + 1, t, m.succ_pos, Nat.succ_le_succ hlen, by simpa [hx] using hcount,
        (run_of_step m hstep).trans hrun, hphase⟩
    | true =>
      have hblink := hs.blink_of_tick hi hx hstep
      by_cases hdue : s.cfg.blinkMs ≤ dueElapsed h s
      · rw [if_pos hdue] at hblink
        exact ⟨1, s', Nat.one_pos, by simp, by simp [hx], run_of_step 0 hstep, by simp [hblink]⟩
      · rw [if_neg hdue] at hblink
        obtain ⟨p, rfl⟩ : ∃ p, q = p + 1 := Nat.exists_eq_succ_of_ne_zero (by rintro rfl; omega)
        obtain ⟨m, t, _, hlen, hcount, hrun, hphase⟩ :=
          ih hs' hinputs p
            (by rw [hs.dueElapsed_of_tick hi hx (by omega) hstep, hcfg]; rw [Nat.add_one_mul] at hq; omega)
            (by simpa [hx] using hticks)
        rw [hblink] at hphase
        exact ⟨m + 1, t, m.succ_pos, Nat.succ_le_succ hlen, by simpa [hx] using hcount,
          (run_of_step m hstep).trans hrun, hphase⟩

end GoesOnBlinking

/-! ## The beginnings of an endless stream -/

@[simp] theorem length_firstInputs (xs : Nat → Input) (k : Nat) : (firstInputs xs k).length = k := by simp [firstInputs]

theorem firstInputs_add (xs : Nat → Input) (a b : Nat) :
    firstInputs xs (a + b) = firstInputs xs a ++ firstInputs (fun i => xs (a + i)) b := by
  simp [firstInputs, List.range_add]

theorem mem_firstInputs {xs : Nat → Input} {k : Nat} {x : Input} (h : x ∈ firstInputs xs k) : ∃ i, xs i = x := by
  obtain ⟨i, _, rfl⟩ := List.mem_map.mp h
  exact ⟨i, rfl⟩

/-- A run of at most `m` steps is alike on every beginning of a stream with at least `m` inputs. -/
theorem run_firstInputs {s t : State} {xs : Nat → Input} {j m d : Nat} (hj : j ≤ m)
    (h : Host.Core.run Sys2Proof.core j (s.withInputs (firstInputs xs (m + d))) = .next t) :
    Host.Core.run Sys2Proof.core j (s.withInputs (firstInputs xs m)) = .next (t.withInputs ((firstInputs xs m).drop j)) :=
  run_withInputs (s := s.withInputs (firstInputs xs (m + d))) ((length_firstInputs xs m).symm ▸ hj)
    (firstInputs_add xs m d) h

/-- If the TICKs never end, as many as one asks for come after any input. -/
theorem exists_ticks_after {xs : Nat → Input} (h : ∀ n, ∃ m, n ≤ m ∧ isTick (xs m) = true) (k q : Nat) :
    ∃ b, q ≤ (firstInputs (fun i => xs (k + i)) b).countP isTick := by
  induction q with
  | zero => exact ⟨0, Nat.zero_le _⟩
  | succ q ih =>
    obtain ⟨b, hb⟩ := ih
    obtain ⟨m, hbm, hm⟩ := h (k + b)
    obtain ⟨d, rfl⟩ := Nat.exists_eq_add_of_le hbm
    have hone : (firstInputs (fun i => xs (k + (b + d + i))) 1).countP isTick = 1 := by
      simp [firstInputs, ← Nat.add_assoc, hm]
    refine ⟨b + d + 1, ?_⟩
    rw [firstInputs_add, firstInputs_add, List.countP_append, List.countP_append]
    omega

/-- Settles O53: after `k` inputs, `GoesOnBlinking.toggles_within` on a beginning with enough TICKs
(`exists_ticks_after`), of which the run reads no more than the inputs up to the toggle (`run_withInputs`). -/
theorem activeBlinkTogglesForever : Obligations.ActiveBlinkTogglesForever := by
  intro h s xs hforever hroom hactive hgo k
  obtain ⟨b, hb⟩ :=
    exists_ticks_after hforever.ticks_forever k ((s.cfg.blinkMs + s.cfg.pollMs - 1) / s.cfg.pollMs + 1)
  have hs : GoesOnBlinking h (s.withInputs (firstInputs xs (k + b))) :=
    ⟨hactive, fun x hx => by obtain ⟨i, rfl⟩ := mem_firstInputs hx; exact hgo i, (hforever.on_time _).ticks, hroom⟩
  obtain ⟨t₁, hrun₁⟩ := run_is_next k (s.withInputs (firstInputs xs (k + b)))
  obtain ⟨h₁, hs₁⟩ := hs.run hrun₁
  have hi₁ : t₁.inputs = firstInputs (fun i => xs (k + i)) b := by
    rw [run_inputs hrun₁]
    exact (congrArg _ (firstInputs_add xs k b)).trans (List.drop_left' (length_firstInputs xs k))
  have hcfg : t₁.cfg = s.cfg := by rw [configurationIsNeverWritten k _ _ hrun₁]; rfl
  have hceil := (ceil_div_le_iff (B := s.cfg.blinkMs) s.cfg.pollMs.pos).mp le_rfl
  obtain ⟨m, t₂, hpos, hlen, hcount, hrun₂, hphase⟩ :=
    hs₁.toggles_within hi₁ _ (by rw [hcfg]; exact hceil.trans (Nat.le_add_left _ _)) hb
  rw [length_firstInputs] at hlen
  obtain ⟨d, rfl⟩ := Nat.exists_eq_add_of_le hlen
  rw [← Nat.add_assoc] at hrun₁
  refine ⟨k + m, by omega, ?_, _, _, run_firstInputs (Nat.le_add_right k m) hrun₁,
    run_firstInputs le_rfl ((run_add m hrun₁).trans hrun₂), hphase⟩
  rw [firstInputs_add, List.take_left' (length_firstInputs _ m)] at hcount
  rwa [firstInputs_add, List.drop_left' (length_firstInputs xs k)]

end Sys2Proof.Machine

/-! The control loop: everything a TICK leaves, a quiet tick, how many events a step appends, and the step function on a
legal word (45_control_loop.md R260, R262, R268). -/

namespace Sys2Proof.Machine

/-! ## One channel's part of a tick -/

@[simp] theorem tickChannel_errIllegal (c : Chan) (lvl : Level) (s : State) :
    (tickChannel c lvl s).errIllegal = s.errIllegal := by
  rw [tickChannel_spec]; split <;> simp

/-- It writes the frame buffer if it confirms a press, with the digit that it leaves. -/
theorem tickChannel_fb (c : Chan) (lvl : Level) (s : State) :
    (tickChannel c lvl s).fb = if confirms s c lvl then render s.cfg (tickChannel c lvl s).digit else s.fb := by
  rw [tickChannel_digit, tickChannel_spec]; split <;> simp

/-- It emits the press and the frame of a press that it confirms, with the digit that it leaves. -/
theorem tickChannel_events (c : Chan) (lvl : Level) (s : State) :
    (tickChannel c lvl s).events = s.events ++
      if confirms s c lvl then
        [.press c (tickChannel c lvl s).digit, .frame (render s.cfg (tickChannel c lvl s).digit)]
      else [] := by
  rw [tickChannel_digit, tickChannel_spec]; split <;> simp

/-! ## The blink step -/

@[simp] theorem blinkStep_now (s : State) : (blinkStep s).now = s.now := by rw [blinkStep]; split <;> simp
@[simp] theorem blinkStep_errIllegal (s : State) : (blinkStep s).errIllegal = s.errIllegal := by
  rw [blinkStep]; split <;> simp

theorem blinkStep_events_eq (s : State) :
    (blinkStep s).events = s.events ++ if toggles s then [.indicator (drive s.cfg (!s.blink.phase))] else [] := by
  obtain ⟨hdue, h⟩ | ⟨hnot, h⟩ := blinkStep_cases s
  · rw [h, hdue]; rfl
  · rw [h, hnot]; exact (List.append_nil _).symm

/-! ## The whole tick -/

@[simp] theorem afterTick_now (lv : Chan → Level) (s : State) : (afterTick lv s).now = s.now := by simp [afterTick]
@[simp] theorem afterTick_errIllegal (lv : Chan → Level) (s : State) : (afterTick lv s).errIllegal = s.errIllegal := by
  simp [afterTick]

/-- The digit after a tick is A's, counted down if B is confirmed. -/
theorem afterTick_digit (lv : Chan → Level) (s : State) :
    (afterTick lv s).digit =
      if confirms s .B (lv .B) then countDigit .B (tickChannel .A (lv .A) s).digit
      else (tickChannel .A (lv .A) s).digit := by
  rw [afterTick, blinkStep_digit, tickChannel_digit, confirms_B_tickChannel_A]

/-- The frame buffer after a tick that confirms a press shows the last digit. -/
theorem afterTick_fb (lv : Chan → Level) (s : State) :
    (afterTick lv s).fb =
      if confirms s .A (lv .A) ∨ confirms s .B (lv .B) then render s.cfg (afterTick lv s).digit else s.fb := by
  rw [afterTick_digit, afterTick, blinkStep_fb, tickChannel_fb, tickChannel_digit, tickChannel_cfg,
    confirms_B_tickChannel_A, tickChannel_fb]
  by_cases hB : confirms s .B (lv .B) = true
  · simp only [hB, or_true, if_true]
  · simp only [hB, or_false, if_false, Bool.false_eq_true]

/-- The events of a tick: A's press and frame, B's press and frame, the indicator (45_control_loop.md R260). -/
theorem afterTick_events (lv : Chan → Level) (s : State) :
    (afterTick lv s).events = s.events ++
      (if confirms s .A (lv .A) then
        [.press .A (tickChannel .A (lv .A) s).digit, .frame (render s.cfg (tickChannel .A (lv .A) s).digit)]
      else []) ++
      (if confirms s .B (lv .B) then
        [.press .B (afterTick lv s).digit, .frame (render s.cfg (afterTick lv s).digit)]
      else []) ++
      (if toggles s then [.indicator (drive s.cfg (!s.blink.phase))] else []) := by
  have hdigit : (afterTick lv s).digit = (tickChannel .B (lv .B) (tickChannel .A (lv .A) s)).digit := blinkStep_digit _
  rw [hdigit, afterTick, blinkStep_events_eq, tickChannel_events .B, tickChannel_events .A, confirms_B_tickChannel_A]
  simp only [toggles_tickChannel, tickChannel_cfg, tickChannel_blink]

/-- Settles O48: the fields of `afterTick`, with INC for A, DEC for B and the drive in the words of R230. -/
theorem tickResult : Obligations.TickResult := by
  intro lv s
  refine ⟨afterTick lv s, (tickChannel .A (lv .A) s).digit, (afterTick lv s).digit, drive s.cfg (!s.blink.phase),
    exec_tick lv s, ?digitA, ?digitB, drive_not s.cfg s.blink.phase, afterTick_chan lv s, rfl, afterTick_fb lv s,
    afterTick_blink lv s, afterTick_indicator lv s, afterTick_events lv s, afterTick_cfg lv s, afterTick_errIllegal lv s,
    afterTick_now lv s, afterTick_inputs lv s⟩
  case digitA => rw [tickChannel_digit, apply_ite Fin.val, countDigit_A_val]
  case digitB => rw [afterTick_digit, apply_ite Fin.val, countDigit_B_val]

/-! ## A quiet tick -/

/-- Without a confirmed press, a channel's part of a tick writes the channel's state alone. -/
theorem tickChannel_of_not_confirms {c : Chan} {lvl : Level} {s : State} (h : confirms s c lvl = false) :
    tickChannel c lvl s = s.setChanState c (stateAfter (s.chan c).state (windowClosed c s) (pressed lvl)) := by
  rw [tickChannel_spec, h]
  rfl

/-- A tick that confirms nothing and does not toggle writes the states of the two channels alone. -/
theorem afterTick_of_quiet {lv : Chan → Level} {s : State} (hA : confirms s .A (lv .A) = false)
    (hB : confirms s .B (lv .B) = false) (hblink : toggles s = false) :
    ∃ a b, afterTick lv s = (s.setChanState .A a).setChanState .B b := by
  obtain ⟨hdue, _⟩ | ⟨_, hsame⟩ := blinkStep_cases (tickChannel .B (lv .B) (tickChannel .A (lv .A) s))
  · rw [toggles_tickChannel, toggles_tickChannel, hblink] at hdue
    cases hdue
  · rw [afterTick, hsame, tickChannel_of_not_confirms ((confirms_B_tickChannel_A ..).trans hB),
      tickChannel_of_not_confirms hA]
    exact ⟨_, _, rfl⟩

/-- The third row of the table of 41_debounce.md R141 is the one that leaves a `Debouncing` channel `Pressed`. -/
theorem stateAfter_debouncing_eq_pressed_iff (closed low : Bool) :
    stateAfter .debouncing closed low = .pressed ↔ closed = true ∧ low = true := by
  cases closed with
  | false => simp [stateAfter]
  | true => cases low <;> simp [stateAfter]

/-- The rows of the table of 41_debounce.md R141 that confirm nothing: the state stays, or becomes `Released`. -/
theorem stateAfter_of_not_confirms {c : Chan} {lvl : Level} {s : State} (h : confirms s c lvl = false) :
    stateAfter (s.chan c).state (windowClosed c s) (pressed lvl) = (s.chan c).state ∨
    ((s.chan c).state ≠ .released ∧
      stateAfter (s.chan c).state (windowClosed c s) (pressed lvl) = .released) := by
  by_cases hsame : stateAfter (s.chan c).state (windowClosed c s) (pressed lvl) = (s.chan c).state
  · exact .inl hsame
  · obtain ⟨hdeb, hpressed⟩ | ⟨hdeb, hrel⟩ | ⟨hpressed, hrel⟩ := stateAfter_transitions hsame
    · rw [hdeb, stateAfter_debouncing_eq_pressed_iff] at hpressed
      obtain ⟨hclosed, hlow⟩ := hpressed
      have hconf : confirms s c lvl = true :=
        (confirms_iff ..).mpr ⟨hdeb, (windowClosed_iff c s).mp hclosed, of_decide_eq_true hlow⟩
      cases h.symm.trans hconf
    · exact .inr ⟨by rw [hdeb]; decide, hrel⟩
    · exact .inr ⟨by rw [hpressed]; decide, hrel⟩

/-- Settles O49: `afterTick_of_quiet`, and per channel the rows of the table that confirm nothing. -/
theorem quietTickOnlyReleasesChannels : Obligations.QuietTickOnlyReleasesChannels := by
  intro lv s hA hB hblink
  refine ⟨afterTick lv s, exec_tick lv s, ?_, fun c => ?_⟩
  · obtain ⟨a, b, h⟩ := afterTick_of_quiet hA hB hblink
    rw [h]
    rfl
  · have hconf : confirms s c (lv c) = false := by
      cases c with
      | A => exact hA
      | B => exact hB
    rw [afterTick_chan]
    obtain hsame | ⟨hne, hrel⟩ := stateAfter_of_not_confirms hconf
    · exact .inl (by rw [hsame])
    · exact .inr ⟨hne, by rw [hrel]⟩

/-! ## How many events are appended -/

/-- From `s` to `t` the event list grows by at most `n` events, and loses none (70_reset_and_hazards.md R341). -/
def Appends (n : Nat) (s t : State) : Prop := ∃ evs, t.events = s.events ++ evs ∧ evs.length ≤ n

theorem Appends.of_events_eq {s t : State} (n : Nat) (h : t.events = s.events) : Appends n s t :=
  ⟨[], h.trans (List.append_nil _).symm, Nat.zero_le n⟩

theorem Appends.trans {m n : Nat} {s t u : State} (h₁ : Appends m s t) (h₂ : Appends n t u) : Appends (m + n) s u := by
  obtain ⟨evs₁, happ₁, hlen₁⟩ := h₁
  obtain ⟨evs₂, happ₂, hlen₂⟩ := h₂
  exact ⟨evs₁ ++ evs₂, by rw [happ₂, happ₁, List.append_assoc], by rw [List.length_append]; omega⟩

/-- A channel's part of a tick appends a press and its frame, or nothing. -/
theorem tickChannel_appends (c : Chan) (lvl : Level) (s : State) : Appends 2 s (tickChannel c lvl s) :=
  ⟨_, tickChannel_events c lvl s, by split <;> simp⟩

/-- The blink step appends an indicator event, or nothing. -/
theorem blinkStep_appends (s : State) : Appends 1 s (blinkStep s) :=
  ⟨_, blinkStep_events_eq s, by split <;> simp⟩

/-- A tick appends at most two events for each channel and one for the blink. -/
theorem afterTick_appends (lv : Chan → Level) (s : State) : Appends 5 s (afterTick lv s) :=
  ((tickChannel_appends ..).trans (tickChannel_appends ..)).trans (blinkStep_appends _)

theorem exec_appends {i : Instr} {s t : State} (h : exec i s = .next t) : Appends 5 s t := by
  obtain ⟨_, _, _, rfl⟩ | ⟨_, _, _, _, rfl⟩ | ⟨lv, _, rfl⟩ | ⟨_, _, rfl⟩ | ⟨_, rfl⟩ := exec_cases h
  · exact .of_events_eq 5 (setChan_events ..)
  · exact .of_events_eq 5 rfl
  · exact afterTick_appends lv s
  · exact .of_events_eq 5 rfl
  · exact ⟨_, showDigit_events s, by simp⟩

/-- Of the ways a step can end, only a command appends events. -/
theorem step_appends {s t : State} (h : step s = .next t) : Appends 5 s t := by
  obtain ⟨_, rfl⟩ | ⟨_, _, _, rfl⟩ | ⟨w, n, rest, _, _, _, he⟩ | ⟨_, _, _, _, _, _, rfl⟩ := step_cases s t h
  · exact .of_events_eq 5 rfl
  · exact .of_events_eq 5 rfl
  · have hexec : Appends 5 (accept (.cmd w n) rest s) t := exec_appends he
    exact hexec
  · exact .of_events_eq 5 rfl

/-- Settles O60: `step_appends`, which counts the five events of a tick part by part. -/
theorem stepAppendsAtMostFiveEvents : Obligations.StepAppendsAtMostFiveEvents := fun _ _ => step_appends

/-! ## The step function -/

/-- Settles O54: `step_legal`, with what accepting the input writes. -/
theorem stepRunsDecodedCommand : Obligations.StepRunsDecodedCommand := fun _ _ _ _ _ hi hd => step_legal hi hd

end Sys2Proof.Machine

/-! The host's contract: what a step does to the time value, the stamps and the frames, against the host's view of it
(45_control_loop.md R265). -/

namespace Sys2Proof.Machine

/-! ## What the block keeps of an input's reading -/

theorem exec_now {i : Instr} {s t : State} (h : exec i s = .next t) : t.now = s.now := by
  obtain ⟨_, _, _, rfl⟩ | ⟨_, _, _, _, rfl⟩ | ⟨_, _, rfl⟩ | ⟨_, _, rfl⟩ | ⟨_, rfl⟩ := exec_cases h <;> simp

section
variable {h : HostView} {s t : State} {x : Input} {rest : List Input}

/-- A step on an input takes its reading, narrowed, as `now`. -/
theorem step_now (hi : s.inputs = x :: rest) (hstep : step s = .next t) :
    t.now = timeValue s.cfg.timeBits (inputReading x) := by
  obtain ⟨hnil, _⟩ | ⟨n, _, hc, rfl⟩ | ⟨w, n, _, i, hc, _, he⟩ | ⟨w, n, _, _, hc, _, rfl⟩ := step_cases s t hstep
  · cases hi.symm.trans hnil
  · cases hi.symm.trans hc; rfl
  · cases hi.symm.trans hc; exact exec_now he
  · cases hi.symm.trans hc; rfl

/-- A channel's stamp is taken where the host's view takes it: by a reset and by an entry into `Debouncing`. -/
theorem step_chan_stamp (hi : s.inputs = x :: rest) (hstep : step s = .next t) (c : Chan) :
    (t.chan c).t =
      if isReset x || decide ((s.chan c).state ≠ .debouncing ∧ (t.chan c).state = .debouncing) then
        timeValue s.cfg.timeBits (inputReading x)
      else (s.chan c).t := by
  cases x with
  | reset n =>
    cases (step_reset hi).symm.trans hstep
    simp [isReset, inputReading]
  | cmd w n =>
    obtain hsame | ⟨⟨m, _, hc⟩, _⟩ | ⟨_, hrel, hopen⟩ | ⟨lv, closed, _, htick⟩ := step_chan c hstep
    · simp [isReset, hsame]
    · cases hi.symm.trans hc
    · simp [hrel, hopen, step_now hi hstep]
    · rw [htick, if_neg]
      simpa [isReset] using stateAfter_ne_debouncing closed (pressed (lv c))

/-- The blink's stamp is taken where the host's view takes it: by a reset and by a toggle. -/
theorem step_blink_stamp (hi : s.inputs = x :: rest) (hstep : step s = .next t) :
    t.blink.t =
      if isReset x || decide (s.blink.phase ≠ t.blink.phase) then timeValue s.cfg.timeBits (inputReading x)
      else s.blink.t := by
  cases x with
  | reset n =>
    cases (step_reset hi).symm.trans hstep
    rfl
  | cmd w n =>
    obtain ⟨hkept, _⟩ | ⟨m, _, hc⟩ | ⟨en, _, hactive, _⟩ | ⟨w', n', rest', lvlA, lvlB, hc, hd, hdue⟩ := step_blink hstep
    · simp [isReset, hkept]
    · cases hi.symm.trans hc
    · simp [isReset, hactive]
    · cases hi.symm.trans hc
      cases (step_tick (lv := tickLevels lvlA lvlB) hi hd).symm.trans hstep
      simp [afterTick_blink, hdue]

theorem framesOf_append (es es' : List Event) : framesOf (es ++ es') = framesOf es ++ framesOf es' :=
  List.filterMap_append

/-! ## The clauses of the contract -/

/-- A clause that is kept admits the next input, and is kept of the rest after it. -/
theorem keeps_step {allows : HostView → State → Input → Bool} (hk : keeps allows s.inputs h s = true)
    (hi : s.inputs = x :: rest) (hstep : step s = .next t) :
    allows h s x = true ∧ keeps allows t.inputs (h.after x s t) t = true := by
  rw [hi, keeps_cons _ h s t x rest hi hstep, Bool.and_eq_true] at hk
  rwa [step_inputs hstep, hi]

theorem TimeContract.reading_le (hc : TimeContract h s) (hi : s.inputs = x :: rest) : h.reading ≤ inputReading x := by
  obtain ⟨t, hstep⟩ := step_is_next s
  obtain ⟨hallow, _⟩ := keeps_step hc.time hi hstep
  rw [HostView.timeAllows, Bool.and_eq_true] at hallow
  obtain ⟨hread, _⟩ := hallow
  exact of_decide_eq_true hread

theorem TimeContract.step (hc : TimeContract h s) (hi : s.inputs = x :: rest) (hstep : Machine.step s = .next t) :
    TimeContract (h.after x s t) t where
  channel_stamps c := by
    rw [step_chan_stamp hi hstep, after_stamp, step_cfg hstep, hc.channel_stamps c, apply_ite (timeValue _)]
  blink_stamp := by
    rw [step_blink_stamp hi hstep, after_stampBlink, step_cfg hstep, hc.blink_stamp, apply_ite (timeValue _)]
  time := (keeps_step hc.time hi hstep).2

/-- The next TICK stays due within `POLL_MS`, as the readings do not decrease. -/
theorem TickContract.step (hc : TickContract h s) (hread : h.reading ≤ inputReading x) (hi : s.inputs = x :: rest)
    (hstep : Machine.step s = .next t) : TickContract (h.after x s t) t := by
  obtain ⟨hallow, hrest⟩ := keeps_step hc.ticks hi hstep
  obtain ⟨_, hdue⟩ := hc.next_tick
  refine ⟨?_, hrest⟩
  rw [after_reading, after_tickDue, step_cfg hstep]
  rw [HostView.tickAllows] at hallow
  cases hx : isTick x with
  | true =>
    have hnow : inputReading x = h.tickDue := by simpa [hx] using hallow
    simp only [if_true]
    omega
  | false =>
    have hnow : inputReading x ≤ h.tickDue := by simpa [hx] using hallow
    simp only [Bool.false_eq_true, if_false]
    omega

theorem HostContract.step (hc : HostContract h s) (hi : s.inputs = x :: rest) (hstep : Machine.step s = .next t) :
    HostContract (h.after x s t) t where
  toTimeContract := hc.toTimeContract.step hi hstep
  toTickContract := hc.toTickContract.step (hc.toTimeContract.reading_le hi) hi hstep
  pins := (keeps_step hc.pins hi hstep).2
  driver := by
    obtain ⟨evs, happ, _⟩ := step_appends hstep
    rw [after_accepted, happ, List.drop_left, framesOf_append, hc.driver]

/-- Right after a reset every stamp is the reset's reading, narrowed, and no input waits. -/
theorem startState_hostContract (c : Config) (a b : Level) {n due : Nat} (hle : n ≤ due) (hdue : due ≤ n + c.pollMs) :
    HostContract (.atReset a b n due) (startState c (timeValue c.timeBits n)) where
  channel_stamps ch := by cases ch <;> rfl
  blink_stamp := rfl
  time := keeps_nil ..
  next_tick := ⟨hle, hdue⟩
  ticks := keeps_nil ..
  pins := keeps_nil ..
  driver := rfl

end

/-- Settles O51: `startState_hostContract`, and `HostContract.step` clause by clause. -/
theorem hostContractIsKeptByEveryStep : Obligations.HostContractIsKeptByEveryStep :=
  ⟨fun c a b _ _ hle hdue => startState_hostContract c a b hle hdue, fun _ _ _ _ _ hc hi hstep => hc.step hi hstep⟩

end Sys2Proof.Machine

/-! Errors: no command reads or writes the error flag, an Illegal word sets it and does nothing else, and every run goes
on (60_exceptions.md R300, R301, R302, R318). -/

namespace Sys2Proof.Machine

/-! ## A step and a run that go on -/

/-- Settles O55: `step_illegal`, with what accepting the input writes. -/
theorem illegalWordSetsOnlyTheFlag : Obligations.IllegalWordSetsOnlyTheFlag := fun _ _ _ _ _ hi hd => step_illegal hi hd

/-- Settles O56. -/
theorem idleStepKeepsState : Obligations.IdleStepKeepsState := fun _ => step_idle

/-- Settles O57: `exec_is_next` for the commands, `run_is_next` for the runs. -/
theorem everyRunGoesOn : Obligations.EveryRunGoesOn := ⟨exec_is_next, run_is_next⟩

/-! ## Who writes the error flag -/

theorem exec_errIllegal {i : Instr} {s t : State} (h : exec i s = .next t) : t.errIllegal = s.errIllegal := by
  obtain ⟨_, _, _, rfl⟩ | ⟨_, _, _, _, rfl⟩ | ⟨_, _, rfl⟩ | ⟨_, _, rfl⟩ | ⟨_, rfl⟩ := exec_cases h <;> simp

/-- Of the ways a step can end, only a reset clears the flag. -/
theorem step_keeps_errIllegal {s t : State} (hs : NoReset s) (herr : s.errIllegal = true) (h : step s = .next t) :
    t.errIllegal = true := by
  obtain ⟨_, rfl⟩ | ⟨n, rest, hi, _⟩ | ⟨_, _, _, _, _, _, he⟩ | ⟨_, _, _, _, _, _, rfl⟩ := step_cases s t h
  · exact herr
  · cases hs (.reset n) (by simp [hi])
  · rw [exec_errIllegal he, accept_errIllegal, herr]
  · exact illegal_errIllegal _

/-- Settles O58, by induction on the number of steps. -/
theorem errorFlagIsSticky : Obligations.ErrorFlagIsSticky := by
  intro k
  induction k with
  | zero =>
    intro s t herr _ h
    cases h
    exact herr
  | succ k ih =>
    intro s t herr hs h
    obtain ⟨s', hstep, hrun⟩ := run_succ h
    exact ih s' t (step_keeps_errIllegal hs herr hstep) (step_keeps_noReset hs hstep) hrun

/-! ## Another value of the error flag -/

/-- `s` with another value of the error flag. -/
def State.withErrIllegal (s : State) (b : Bool) : State := { s with errIllegal := b }

@[simp] theorem withErrIllegal_chan (s : State) (b : Bool) (c : Chan) : (s.withErrIllegal b).chan c = s.chan c := by
  cases c <;> rfl

/-! The operations of a command commute with a change of the flag. -/

theorem setChan_withErrIllegal (s : State) (c : Chan) (v : ButtonChannel) (b : Bool) :
    (s.withErrIllegal b).setChan c v = (s.setChan c v).withErrIllegal b := by cases c <;> rfl

theorem setChanState_withErrIllegal (s : State) (c : Chan) (v : BtnState) (b : Bool) :
    (s.withErrIllegal b).setChanState c v = (s.setChanState c v).withErrIllegal b := by cases c <;> rfl

/-- The debounce step reads the configuration, `now` and the channel; COUNT reads the digit and the configuration. -/
theorem tickChannel_withErrIllegal (c : Chan) (lvl : Level) (s : State) (b : Bool) :
    tickChannel c lvl (s.withErrIllegal b) = (tickChannel c lvl s).withErrIllegal b := by
  have hchan := withErrIllegal_chan s b c
  have hconf : confirms (s.withErrIllegal b) c lvl = confirms s c lvl := confirms_congr lvl rfl rfl hchan
  have hclosed : windowClosed c (s.withErrIllegal b) = windowClosed c s := windowClosed_congr rfl rfl hchan
  rw [tickChannel_spec, tickChannel_spec, hconf, hclosed, hchan, setChanState_withErrIllegal]
  split <;> rfl

theorem blinkStep_withErrIllegal (s : State) (b : Bool) :
    blinkStep (s.withErrIllegal b) = (blinkStep s).withErrIllegal b := by
  have hdue : blinkDue (s.withErrIllegal b) = blinkDue s := rfl
  rw [blinkStep, blinkStep, hdue]
  split <;> rfl

theorem afterTick_withErrIllegal (lv : Chan → Level) (s : State) (b : Bool) :
    afterTick lv (s.withErrIllegal b) = (afterTick lv s).withErrIllegal b := by
  rw [afterTick, tickChannel_withErrIllegal, tickChannel_withErrIllegal, blinkStep_withErrIllegal, afterTick]

theorem execEdge_withErrIllegal {ch : Chan} {lvl : Level} {s t : State} (b : Bool) (h : execEdge ch lvl s = .next t) :
    execEdge ch lvl (s.withErrIllegal b) = .next (t.withErrIllegal b) := by
  rw [execEdge] at h ⊢
  rw [withErrIllegal_chan]
  split at h <;> cases h
  · rw [if_pos ‹_›, setChan_withErrIllegal]; rfl
  · rw [if_neg ‹_›]

theorem exec_withErrIllegal {i : Instr} {s t : State} (b : Bool) (h : exec i s = .next t) :
    exec i (s.withErrIllegal b) = .next (t.withErrIllegal b) := by
  cases i with
  | edge ch lvl => exact execEdge_withErrIllegal b h
  | tick lvlA lvlB => cases h; exact congrArg _ (afterTick_withErrIllegal (tickLevels lvlA lvlB) s b)
  | blinken en => cases h; rfl
  | render => cases h; rfl

/-- Settles O59: `exec_withErrIllegal`, that the flag is not read, and `exec_errIllegal`, that it is not written. -/
theorem commandsIgnoreErrorFlag : Obligations.CommandsIgnoreErrorFlag :=
  fun _ _ _ b h => ⟨exec_withErrIllegal b h, exec_errIllegal h⟩

end Sys2Proof.Machine

/-! Reset, the latency of a press, and a press that is held (70_reset_and_hazards.md R340, R341, R353, R361). -/

namespace Sys2Proof.Machine

/-! ## Reset -/

/-- Settles O4: `step_reset`, with what a reset writes and leaves. -/
theorem resetInputReplacesState : Obligations.ResetInputReplacesState :=
  fun _ _ _ hi => ⟨_, step_reset hi, fun _ => applyReset_chan .., rfl, rfl, rfl, darkFrame_getElem, rfl, rfl, rfl, rfl⟩

/-! ## Press latency -/

/-- Between the readings of a fresh stamp, elapsed time is the difference of the readings (R354). -/
theorem elapsed_of_fresh {w t0 t1 : Nat} (h : Fresh w t0 t1) :
    elapsed w (timeValue w t1) (timeValue w t0) = t1 - t0 := by
  obtain ⟨hle, hlt⟩ := h
  obtain ⟨d, rfl⟩ := Nat.exists_eq_add_of_le hle
  rw [elapsed_timeValue t0 (by omega), Nat.add_sub_cancel_left]

/-- With the pin low, a tick takes a `Debouncing` channel to `Pressed` exactly if its window has closed. -/
theorem afterTick_state_of_low {c : Chan} {lv : Chan → Level} {s : State} (hdeb : (s.chan c).state = .debouncing)
    (hlow : lv c = .low) :
    ((afterTick lv s).chan c).state = if windowClosed c s then .pressed else .debouncing := by
  rw [afterTick_chan, hdeb, hlow]
  cases windowClosed c s <;> rfl

/-- Settles O50: the window has closed at the ticks from `⌈(te + D) / P⌉` on (`ceil_div_le_iff`). -/
theorem pressLatency : Obligations.PressLatency := by
  intro s c lv te k hchan hnow hfresh hlow
  have hP : 1 ≤ (s.cfg.pollMs : Nat) := s.cfg.pollMs.pos
  have hceil (m : Nat) := ceil_div_le_iff (B := te + s.cfg.debounceMs) (m := m) hP
  have hclosed : windowClosed c s = true ↔ te + s.cfg.debounceMs ≤ k * s.cfg.pollMs := by
    rw [windowClosed_iff, hnow, hchan, elapsed_of_fresh hfresh, Nat.le_sub_iff_add_le' hfresh.1]
  have hdeb : (s.chan c).state = .debouncing := by rw [hchan]
  refine ⟨⟨_, exec_tick lv s, ?_⟩, (hceil _).mp le_rfl, ?_⟩
  · rw [afterTick_state_of_low hdeb hlow, hceil, ← hclosed]
    simp
  · have hfloor := Nat.div_mul_le_self (te + s.cfg.debounceMs + s.cfg.pollMs - 1) s.cfg.pollMs
    omega

/-! ## What the contract says of the next input -/

section
variable {h : HostView} {s t : State} {x : Input} {rest : List Input} {c : Chan} {te : Nat}

/-- A TICK compares the stamp of every `Debouncing` channel. -/
theorem HostView.stamp_mem_compared (h : HostView) (hx : isTick x = true) (hdeb : (s.chan c).state = .debouncing) :
    h.stamp c ∈ h.compared s x := by
  rw [HostView.compared, if_pos hx]
  cases c with
  | A => rw [chan_A] at hdeb; simp [hdeb, HostView.stamp]
  | B => rw [chan_B] at hdeb; simp [hdeb, HostView.stamp]

/-- R265 (1) at a TICK: the stamp of a `Debouncing` channel is fresh. -/
theorem TimeContract.fresh (hc : TimeContract h s) (hi : s.inputs = x :: rest) (hx : isTick x = true)
    (hdeb : (s.chan c).state = .debouncing) : Fresh s.cfg.timeBits (h.stamp c) (inputReading x) := by
  obtain ⟨t, hstep⟩ := step_is_next s
  obtain ⟨hallow, _⟩ := keeps_step hc.time hi hstep
  rw [HostView.timeAllows, Bool.and_eq_true, List.all_eq_true] at hallow
  obtain ⟨_, hfresh⟩ := hallow
  exact of_decide_eq_true (hfresh _ (h.stamp_mem_compared hx hdeb))

/-- A TICK finds the window of a channel closed exactly if `DEBOUNCE_MS` ms have passed since the reading at which the
stamp was taken. -/
theorem TimeContract.windowClosed_iff (hc : TimeContract h s) (hi : s.inputs = x :: rest) (hx : isTick x = true)
    (hdeb : (s.chan c).state = .debouncing) :
    windowClosed c (accept x rest s) = true ↔ h.stamp c + s.cfg.debounceMs ≤ inputReading x := by
  have hfresh := hc.fresh hi hx hdeb
  rw [Machine.windowClosed_iff, accept_now, accept_chan, accept_cfg, hc.channel_stamps c, elapsed_of_fresh hfresh,
    Nat.le_sub_iff_add_le' hfresh.1]

/-- R265 (4): a TICK comes when it is due. -/
theorem TickContract.tick_reading (hc : TickContract h s) (hi : s.inputs = x :: rest) (hx : isTick x = true) :
    inputReading x = h.tickDue := by
  obtain ⟨t, hstep⟩ := step_is_next s
  obtain ⟨hallow, _⟩ := keeps_step hc.ticks hi hstep
  rw [HostView.tickAllows, if_pos hx] at hallow
  exact of_decide_eq_true hallow

/-- R265 (4): no input comes later than the next TICK is due. -/
theorem TickContract.reading_le (hc : TickContract h s) (hi : s.inputs = x :: rest) : inputReading x ≤ h.tickDue := by
  obtain ⟨t, hstep⟩ := step_is_next s
  obtain ⟨hallow, _⟩ := keeps_step hc.ticks hi hstep
  rw [HostView.tickAllows] at hallow
  split at hallow
  · exact (of_decide_eq_true hallow).le
  · exact of_decide_eq_true hallow

/-- R265 (3): a TICK carries the levels of the pins. -/
theorem HostContract.tick_step (hc : HostContract h s) (hi : s.inputs = x :: rest) (hx : isTick x = true)
    (hstep : Machine.step s = .next t) : t = afterTick h.pin (accept x rest s) := by
  obtain ⟨hallow, _⟩ := keeps_step hc.pins hi hstep
  obtain ⟨w, n, lv, rfl, hd⟩ := exists_tick_word hx
  simp only [HostView.pinsAllow, inputInstr_legal n hd] at hallow
  obtain ⟨hA, hB⟩ : lv .A = h.pin .A ∧ lv .B = h.pin .B := of_decide_eq_true hallow
  rw [hA, hB] at hd
  exact Host.Outcome.next.inj (hstep.symm.trans (step_tick hi hd))

/-! ## Inputs while a pin is held low -/

/-- The input is neither a reset nor a release edge of `c`. -/
structure HoldsPin (c : Chan) (x : Input) : Prop where
  no_reset : isReset x = false
  no_release : isReleaseEdge c x = false

/-- The contract holds and the pin of `c` is low. -/
structure PinHeld (c : Chan) (h : HostView) (s : State) : Prop extends HostContract h s where
  low : h.pin c = .low

/-- The pin stays low until a release edge. -/
theorem PinHeld.step (hp : PinHeld c h s) (hi : s.inputs = x :: rest) (hx : HoldsPin c x)
    (hstep : Machine.step s = .next t) : PinHeld c (h.after x s t) t where
  toHostContract := hp.toHostContract.step hi hstep
  low := by
    have hno := hx.no_release
    rw [after_pin]
    cases hinstr : inputInstr x with
    | none => exact hp.low
    | some i =>
      cases i with
      | edge c' l =>
        simp only
        split
        next hc =>
          subst hc
          cases l with
          | low => rfl
          | high => simp [isReleaseEdge, hinstr] at hno
        next => exact hp.low
      | tick _ _ | blinken _ | render => exact hp.low

/-- Beside a reset and a TICK, no input touches a channel that has left `Released`. -/
theorem step_chan_of_not_tick (hi : s.inputs = x :: rest) (hstep : step s = .next t) (hreset : isReset x = false)
    (hx : isTick x = false) (hst : (s.chan c).state ≠ .released) : t.chan c = s.chan c := by
  obtain hsame | ⟨⟨n, _, hc⟩, _⟩ | ⟨_, hrel, _⟩ | ⟨lv, _, ⟨w, n, _, hc, hd⟩, _⟩ := step_chan c hstep
  · exact hsame
  · cases hi.symm.trans hc
    cases hreset
  · exact absurd hrel hst
  · cases hi.symm.trans hc
    cases hx.symm.trans ((isTick_iff _).mpr ⟨_, _, inputInstr_legal n hd⟩)

/-- A step that does not take `c` from `Debouncing` to `Pressed` shows no press of it. -/
theorem step_shows_no_press (hstep : step s = .next t)
    (hno : ¬((s.chan c).state = .debouncing ∧ (t.chan c).state = .pressed)) : ShowsPresses c 0 s t := by
  obtain hnone | ⟨_, hpress⟩ := step_presses c hstep
  · exact hnone
  · exact absurd hpress hno

/-! ## A counted press -/

/-- The press of `c` is counted and its pin still held low. -/
structure PressCounted (c : Chan) (h : HostView) (s : State) : Prop extends PinHeld c h s where
  pressed : (s.chan c).state = .pressed

/-- While the pin is held low, no input takes a `Pressed` channel out of `Pressed` or shows another press of it. -/
theorem PressCounted.step (hp : PressCounted c h s) (hi : s.inputs = x :: rest) (hx : HoldsPin c x)
    (hstep : Machine.step s = .next t) : PressCounted c (h.after x s t) t ∧ ShowsPresses c 0 s t := by
  refine ⟨⟨hp.toPinHeld.step hi hx hstep, ?_⟩, step_shows_no_press hstep (by simp [hp.pressed])⟩
  cases htick : isTick x with
  | false =>
    rw [step_chan_of_not_tick hi hstep hx.no_reset htick (by simp [hp.pressed])]
    exact hp.pressed
  | true =>
    have hnot : BtnState.pressed ≠ .debouncing := by decide
    rw [hp.tick_step hi htick hstep, afterTick_chan, accept_chan, hp.pressed, hp.low,
      stateAfter_of_not_debouncing _ _ hnot]
    rfl

theorem PressCounted.run {held more : List Input} (hp : PressCounted c h s) (hi : s.inputs = held ++ more)
    (hheld : ∀ y ∈ held, HoldsPin c y) (hrun : Host.Core.run Sys2Proof.core held.length s = .next t) :
    ShowsPresses c 0 s t ∧ (t.chan c).state = .pressed := by
  induction held generalizing h s with
  | nil =>
    cases hrun
    exact ⟨.of_events_eq c rfl, hp.pressed⟩
  | cons y held ih =>
    obtain ⟨s', hstep, hrun'⟩ := run_succ hrun
    rw [List.forall_mem_cons] at hheld
    obtain ⟨hy, hheld'⟩ := hheld
    obtain ⟨hp', hnone⟩ := hp.step hi hy hstep
    obtain ⟨hshows, hpressed⟩ := ih hp' (by rw [step_inputs hstep, hi]; rfl) hheld' hrun'
    exact ⟨hnone.trans hshows, hpressed⟩

/-! ## A press that is not yet counted -/

/-- The press of `c` at reading `te` is not yet counted: its window is open, its pin held low, and the next TICK is due
before `DEBOUNCE_MS + POLL_MS` ms (with `DEBOUNCE_MS` taken as at least 1) have passed. -/
structure PressPending (c : Chan) (te : Nat) (h : HostView) (s : State) : Prop extends PinHeld c h s where
  debouncing : (s.chan c).state = .debouncing
  stamp : h.stamp c = te
  due : h.tickDue < te + max 1 s.cfg.debounceMs + s.cfg.pollMs

/-- A press edge makes the press pending: the next TICK is due within `POLL_MS` ms of it. -/
theorem pressPending_of_press_edge {w : Word} (hc : HostContract h s) (hi : s.inputs = .cmd w te :: rest)
    (hd : decode w = .legal (.edge c .low)) (hrel : (s.chan c).state = .released) (hstep : step s = .next t) :
    PressPending c te (h.after (.cmd w te) s t) t ∧ ShowsPresses c 0 s t := by
  have hcontract := hc.step hi hstep
  have hdeb : (t.chan c).state = .debouncing := by
    rw [step_legal hi hd, exec_edge_opens ((accept_chan ..).symm ▸ hrel)] at hstep
    cases hstep
    rw [setChan_chan_self]
  refine ⟨⟨⟨hcontract, ?low⟩, hdeb, ?stamp, ?due⟩, step_shows_no_press hstep (by simp [hrel])⟩
  case low => simp [after_pin, inputInstr_legal te hd]
  case stamp => simp [after_stamp, hrel, hdeb, inputReading]
  case due =>
    have hdue : (h.after (.cmd w te) s t).tickDue ≤ te + t.cfg.pollMs := hcontract.next_tick.2
    omega

/-- While the pin is held low, an input that does not end the window leaves the press pending. -/
theorem PressPending.step_pending (hp : PressPending c te h s) (hi : s.inputs = x :: rest) (hx : HoldsPin c x)
    (hstep : Machine.step s = .next t) (hdeb : (t.chan c).state = .debouncing)
    (hdue : (h.after x s t).tickDue < te + max 1 s.cfg.debounceMs + s.cfg.pollMs) :
    PressPending c te (h.after x s t) t ∧ ShowsPresses c 0 s t := by
  refine ⟨⟨hp.toPinHeld.step hi hx hstep, hdeb, ?_, step_cfg hstep ▸ hdue⟩, step_shows_no_press hstep (by simp [hdeb])⟩
  rw [after_stamp, hx.no_reset, if_neg (by simp [hp.debouncing]), hp.stamp]

/-- While the pin is held low, a TICK at the end of the window or later counts the press; every other input leaves it
pending. -/
theorem PressPending.step (hp : PressPending c te h s) (hi : s.inputs = x :: rest) (hx : HoldsPin c x)
    (hstep : Machine.step s = .next t) :
    (PressPending c te (h.after x s t) t ∧ ShowsPresses c 0 s t) ∨
    (PressCounted c (h.after x s t) t ∧ ShowsPresses c 1 s t) := by
  have hdue := hp.due
  cases htick : isTick x with
  | false =>
    have hsame := step_chan_of_not_tick (c := c) hi hstep hx.no_reset htick (by simp [hp.debouncing])
    exact .inl (hp.step_pending hi hx hstep (hsame ▸ hp.debouncing) (by simpa [htick] using hdue))
  | true =>
    have hpin := hp.toPinHeld.step hi hx hstep
    have hclosed := hp.windowClosed_iff hi htick hp.debouncing
    rw [hp.stamp, hp.tick_reading hi htick] at hclosed
    obtain rfl := hp.tick_step hi htick hstep
    have hdeb : ((accept x rest s).chan c).state = .debouncing := by rw [accept_chan, hp.debouncing]
    by_cases hend : te + s.cfg.debounceMs ≤ h.tickDue
    · have hconf : confirms (accept x rest s) c (h.pin c) = true :=
        (confirms_iff ..).mpr ⟨hdeb, (Machine.windowClosed_iff ..).mp (hclosed.mpr hend), hp.low⟩
      exact .inr ⟨⟨hpin, afterTick_pressed_of_confirms hconf⟩,
        (afterTick_shows_one_press hconf).congr_left (accept_events ..)⟩
    · have hopen := afterTick_state_of_low hdeb hp.low
      rw [if_neg (mt hclosed.mp hend)] at hopen
      refine .inl (hp.step_pending hi hx hstep hopen ?_)
      rw [after_tickDue, if_pos htick]
      omega

/-- A pending press whose pin is held low until an input at `DEBOUNCE_MS + POLL_MS` ms or later is counted once before
that input, since a TICK is due before it. -/
theorem PressPending.run {held more : List Input} (hp : PressPending c te h s) (hi : s.inputs = held ++ x :: more)
    (hheld : ∀ y ∈ held, HoldsPin c y) (hlate : te + max 1 s.cfg.debounceMs + s.cfg.pollMs ≤ inputReading x)
    (hrun : Host.Core.run Sys2Proof.core held.length s = .next t) :
    ShowsPresses c 1 s t ∧ (t.chan c).state = .pressed := by
  induction held generalizing h s with
  | nil =>
    have hread : inputReading x ≤ h.tickDue := hp.toTickContract.reading_le hi
    have hdue := hp.due
    omega
  | cons y held ih =>
    obtain ⟨s', hstep, hrun'⟩ := run_succ hrun
    rw [List.forall_mem_cons] at hheld
    obtain ⟨hy, hheld'⟩ := hheld
    have hi' : s'.inputs = held ++ x :: more := by rw [step_inputs hstep, hi]; rfl
    obtain ⟨hp', hnone⟩ | ⟨hp', hone⟩ := hp.step hi hy hstep
    · obtain ⟨hshows, hpressed⟩ := ih hp' hi' hheld' (step_cfg hstep ▸ hlate) hrun'
      exact ⟨by simpa only [Nat.zero_add] using hnone.trans hshows, hpressed⟩
    · obtain ⟨hshows, hpressed⟩ := hp'.run hi' hheld' hrun'
      exact ⟨hone.trans hshows, hpressed⟩

end

/-- Settles O52: the press edge makes the press pending (`pressPending_of_press_edge`), and a TICK that is due before
the input `x` counts it (`PressPending.run`). -/
theorem heldPressIsCountedOnce : Obligations.HeldPressIsCountedOnce := by
  intro h s c w te held more x hc hi hd hrel hheld hlate
  obtain ⟨s', hstep⟩ := step_is_next s
  obtain ⟨t, hrun⟩ := run_is_next held.length s'
  obtain ⟨hp, hnone⟩ := pressPending_of_press_edge hc hi hd hrel hstep
  have hholds : ∀ y ∈ held, HoldsPin c y := fun y hy => (hheld y hy).elim .mk
  obtain ⟨hone, hpressed⟩ := hp.run (by rw [step_inputs hstep, hi]; rfl) hholds
    (step_cfg hstep ▸ hlate) hrun
  obtain ⟨evs, happ, hcount⟩ := hnone.trans hone
  exact ⟨t, evs, (run_of_step _ hstep).trans hrun, happ, hcount, hpressed⟩

end Sys2Proof.Machine

/-! The opcode map: each row's match and mask, and the eleven legal words (30_encoding.md section 2, R93 to R96). -/

namespace Sys2Proof

/-! ## The words of the commands -/

/-- A word decodes to a command exactly when it is that command's word. -/
theorem decode_eq_legal_iff {w : Word} {i : Instr} : decode w = .legal i ↔ encode i = w :=
  ⟨fun h => decodeEncodeAgree.2 w i h, decode_of_encode_eq⟩

/-- A word is a command word exactly when its four fields are the command word's. -/
theorem eq_commandWord_iff {w : Word} {op : BitVec 4} {a b : Bool} :
    w = commandWord op a b ↔ opField w = op ∧ aBit w = a ∧ bBit w = b ∧ rsvField w = 0#10 := by
  constructor
  · rintro rfl
    simp
  · rintro ⟨rfl, rfl, rfl, hrsv⟩
    exact (commandWord_fields hrsv).symm

theorem exists_decode_edge_iff (w : Word) :
    (∃ ch lvl, decode w = .legal (.edge ch lvl)) ↔ opField w = 0x1#4 ∧ rsvField w = 0#10 := by
  simp only [decode_eq_legal_iff]
  constructor
  · rintro ⟨ch, lvl, rfl⟩
    simp [encode]
  · rintro ⟨hop, hrsv⟩
    exact ⟨chanOfBit (aBit w), levelOfBit (bBit w), by simp [encode, ← hop, commandWord_fields hrsv]⟩

theorem exists_decode_tick_iff (w : Word) :
    (∃ lvlA lvlB, decode w = .legal (.tick lvlA lvlB)) ↔ opField w = 0x2#4 ∧ rsvField w = 0#10 := by
  simp only [decode_eq_legal_iff]
  constructor
  · rintro ⟨lvlA, lvlB, rfl⟩
    simp [encode]
  · rintro ⟨hop, hrsv⟩
    exact ⟨levelOfBit (aBit w), levelOfBit (bBit w), by simp [encode, ← hop, commandWord_fields hrsv]⟩

theorem exists_decode_blinken_iff (w : Word) :
    (∃ en, decode w = .legal (.blinken en)) ↔ opField w = 0x3#4 ∧ bBit w = false ∧ rsvField w = 0#10 := by
  simp only [decode_eq_legal_iff]
  constructor
  · rintro ⟨en, rfl⟩
    simp [encode]
  · rintro ⟨hop, hb, hrsv⟩
    exact ⟨aBit w, by rw [encode, ← hop, ← hb, commandWord_fields hrsv]⟩

/-! ## Masks -/

@[simp] theorem opField_and (w m : Word) : opField (w &&& m) = opField w &&& opField m := BitVec.extractLsb'_and
@[simp] theorem aBit_and (w m : Word) : aBit (w &&& m) = (aBit w && aBit m) := BitVec.getLsbD_and
@[simp] theorem bBit_and (w m : Word) : bBit (w &&& m) = (bBit w && bBit m) := BitVec.getLsbD_and
@[simp] theorem rsvField_and (w m : Word) : rsvField (w &&& m) = rsvField w &&& rsvField m := BitVec.extractLsb'_and

/-- The mask of a row of the opcode map: `op` and `rsv` whole, and the operand bits that the row fixes. -/
def rowMask (fixA fixB : Bool) : Word :=
  BitVec.allOnes 4 ++ BitVec.ofBool fixA ++ BitVec.ofBool fixB ++ BitVec.allOnes 10

/-- Under a row's mask a word matches a command word exactly when `op` and the fixed operand bits are the command
word's, `rsv` is 0, and the command word has 0 in each operand bit that the row leaves free. -/
theorem and_rowMask_eq_iff {w : Word} {op : BitVec 4} {fixA fixB a b : Bool} :
    w &&& rowMask fixA fixB = commandWord op a b ↔
      opField w = op ∧ (aBit w && fixA) = a ∧ (bBit w && fixB) = b ∧ rsvField w = 0#10 := by
  have hop : opField (rowMask fixA fixB) = BitVec.allOnes 4 := by cases fixA <;> cases fixB <;> rfl
  have ha : aBit (rowMask fixA fixB) = fixA := by cases fixA <;> cases fixB <;> rfl
  have hb : bBit (rowMask fixA fixB) = fixB := by cases fixA <;> cases fixB <;> rfl
  have hrsv : rsvField (rowMask fixA fixB) = BitVec.allOnes 10 := by cases fixA <;> cases fixB <;> rfl
  rw [eq_commandWord_iff, opField_and, aBit_and, bBit_and, rsvField_and, hop, ha, hb, hrsv, BitVec.and_allOnes,
    BitVec.and_allOnes]

/-! ## The eleven legal words -/

/-- Every command with its operands, in the order of the opcode map. -/
def allInstrs : List Instr :=
  [.edge .A .low, .edge .A .high, .edge .B .low, .edge .B .high, .tick .low .low, .tick .low .high, .tick .high .low,
    .tick .high .high, .blinken false, .blinken true, .render]

theorem mem_allInstrs (i : Instr) : i ∈ allInstrs := by
  cases i with
  | edge ch lvl => cases ch <;> cases lvl <;> decide
  | tick lvlA lvlB => cases lvlA <;> cases lvlB <;> decide
  | blinken en => cases en <;> decide
  | render => decide

/-- The legal words are the words of `allInstrs`. -/
theorem exists_decode_legal_iff (w : Word) : (∃ i, decode w = .legal i) ↔ w ∈ allInstrs.map encode := by
  simp only [decode_eq_legal_iff, List.mem_map, mem_allInstrs, true_and]

/-- Settles O20: each row's match is a command word and its mask a `rowMask`, so both sides of a row say the same of the
four fields (`and_rowMask_eq_iff`); the legal words are those of `allInstrs`. -/
theorem opcodeMapMatchesDecode : Obligations.OpcodeMapMatchesDecode := by
  intro w
  refine ⟨?edge, ?tick, ?blinken, ?render, exists_decode_legal_iff w⟩
  case edge =>
    have hrow : w &&& 0xF3FF#16 = 0x1000#16 ↔ _ :=
      and_rowMask_eq_iff (fixA := false) (fixB := false) (op := 0x1#4) (a := false) (b := false)
    rw [exists_decode_edge_iff, hrow]
    simp
  case tick =>
    have hrow : w &&& 0xF3FF#16 = 0x2000#16 ↔ _ :=
      and_rowMask_eq_iff (fixA := false) (fixB := false) (op := 0x2#4) (a := false) (b := false)
    rw [exists_decode_tick_iff, hrow]
    simp
  case blinken =>
    have hrow : w &&& 0xF7FF#16 = 0x3000#16 ↔ _ :=
      and_rowMask_eq_iff (fixA := false) (fixB := true) (op := 0x3#4) (a := false) (b := false)
    rw [exists_decode_blinken_iff, hrow]
    simp
  case render =>
    have hrow : w &&& 0xFFFF#16 = 0x4000#16 ↔ _ :=
      and_rowMask_eq_iff (fixA := true) (fixB := true) (op := 0x4#4) (a := false) (b := false)
    rw [hrow, decode_eq_legal_iff, eq_comm, encode, eq_commandWord_iff, Bool.and_true, Bool.and_true]

end Sys2Proof

/-! Elapsed time across a wrap under the host's contract (70_reset_and_hazards.md R354), and the frame buffer against
the digit over every step (42_digit_counter.md R172, 43_renderer.md R195, R196). -/

namespace Sys2Proof.Machine

/-! ## What a TICK compares -/

section
variable {h : HostView} {s : State} {x : Input} {rest : List Input}

/-- R265 (1): every stamp that the next input compares is fresh. -/
theorem TimeContract.fresh_of_compared {t0 : Nat} (hc : TimeContract h s) (hi : s.inputs = x :: rest)
    (ht : t0 ∈ h.compared s x) : Fresh s.cfg.timeBits t0 (inputReading x) := by
  obtain ⟨t, hstep⟩ := step_is_next s
  obtain ⟨hallow, _⟩ := keeps_step hc.time hi hstep
  rw [HostView.timeAllows, Bool.and_eq_true, List.all_eq_true] at hallow
  obtain ⟨_, hfresh⟩ := hallow
  exact of_decide_eq_true (hfresh t0 ht)

/-- A TICK compares the stamp of an active blink. -/
theorem HostView.stampBlink_mem_compared (h : HostView) (hx : isTick x = true) (hactive : s.blink.active = true) :
    h.stampBlink ∈ h.compared s x := by
  rw [HostView.compared, if_pos hx, if_pos hactive]
  exact List.mem_append_right _ (List.mem_singleton_self _)

end

/-- A tick word makes its input a TICK. -/
theorem isTick_of_decode {w : Word} (n : Nat) {lvlA lvlB : Level} (hd : decode w = .legal (.tick lvlA lvlB)) :
    isTick (.cmd w n) = true :=
  (isTick_iff _).mpr ⟨lvlA, lvlB, inputInstr_legal n hd⟩

/-- Settles O2: the stamps that a TICK compares are the host's readings, narrowed, and fresh, and between fresh readings
elapsed time is exact (`elapsed_of_fresh`). -/
theorem elapsedIsExactWithinOneWrap : Obligations.ElapsedIsExactWithinOneWrap := by
  refine ⟨fun w t0 t1 hfresh => elapsed_of_fresh hfresh, fun h s w n rest lvlA lvlB hc hi hd => ?_⟩
  have hx := isTick_of_decode n hd
  refine ⟨fun c hdeb => ?_, fun hactive => ?_⟩
  · have hfresh := hc.fresh hi hx hdeb
    rw [hc.channel_stamps c]
    exact ⟨hfresh.1, elapsed_of_fresh hfresh⟩
  · have hfresh := hc.fresh_of_compared hi (h.stampBlink_mem_compared hx hactive)
    rw [hc.blink_stamp]
    exact ⟨hfresh.1, elapsed_of_fresh hfresh⟩

/-! ## The frame buffer and the digit -/

/-- Settles O11: `step_keeps_frameShowsDigit`, along the ways a step can end (`step_cases`); a change of the digit is
COUNT's, which renders the new digit (`tickChannel_keeps_frameShowsDigit`). -/
theorem stepKeepsFrameShowingDigit : Obligations.StepKeepsFrameShowingDigit :=
  fun _ _ hs hstep => step_keeps_frameShowsDigit hs hstep

end Sys2Proof.Machine
